-- ==== Sys2Proof/Word.lean ====
section
/-! DEFINITION. The two data widths of CORE: the byte of `A`, `X`, `Y`, `SP`, `P` and of every memory cell, and the 16-bit
word of `PC` and of addresses (spec R6, R10, R40). -/

namespace Sys2Proof

/-- An 8-bit value (R6: data width and width of A, X, Y, SP, P). -/
abbrev Byte := BitVec 8

/-- A 16-bit value (R6: PC width and address width). -/
abbrev Word := BitVec 16

end Sys2Proof
end

