-- ==== Sys2Proof/Config.lean ====
section
/-! DEFINITION. What the spec fixes for this hardware as parameters (R6): the memory map, the vectors, the stack page and
READ_TAP. No value is left open to an opaque constant: the one OPEN parameter, the initial image `M0` (R54), is the `mem`
field of an arbitrary state (log 1). -/

namespace Sys2Proof.Config

/-- Base of the stack page (R6, R16). -/
def stackBase : Word := 0x0100#16

/-- Size of the internal RAM and period of its mirrors (R6, R47). -/
abbrev ramSize : Nat := 0x0800

/-- First address above the RAM and its mirrors; the PPU window starts here (R41, R47). -/
abbrev ppuBase : Nat := 0x2000

/-- Size of the PPU register window and period of its mirrors (R6, R47). -/
abbrev ppuSize : Nat := 0x0008

/-- First address above the PPU window's mirrors: from here on every address is its own cell (R41, R47). -/
abbrev unmirroredBase : Nat := 0x4000

/-- Number of byte addresses (R6, R40). -/
abbrev addressCount : Nat := 0x10000

/-- NMI vector: in the map, never read by the core (R258, R259). -/
def nmiVector : Word := 0xFFFA#16

/-- Reset vector (R47, R259). -/
def resetVector : Word := 0xFFFC#16

/-- IRQ/BRK vector (R47, R259). -/
def breakVector : Word := 0xFFFE#16

/-- `READ_TAP` (R6, R270, D17): false, this hardware has no last-read signal. -/
def readTap : Bool := false

end Sys2Proof.Config
end

