-- ==== Sys2Proof/Machine/Bits.lean ====
section
/-! DEFINITION. Bit fields, byte order and sign interpretation: the byte helpers of the ALU (R93 to R95) and the little-endian
halves of a word (R49). -/

namespace Sys2Proof

/-- `getBitValue(i, byte)` (R93). -/
def bitValue (i : Nat) (b : Byte) : Bool :=
  b.getLsbD i

/-- Low byte of a word, `v[7:0]`. -/
def lowByte (w : Word) : Byte :=
  w.extractLsb' 0 8

/-- High byte of a word, `v[15:8]`. -/
def highByte (w : Word) : Byte :=
  w.extractLsb' 8 8

/-- `hi:lo`, the word `(hi << 8) | lo` (R7). -/
def wordOf (hi lo : Byte) : Word :=
  hi ++ lo

/-- `zext_8(b)` as a word (R7, R73: no operand is sign-extended at assembly). -/
def zeroExtend (b : Byte) : Word :=
  b.setWidth 16

/-- The low 8 bits of an integer result, `v & 0xFF`. -/
def toByte (v : Nat) : Byte :=
  BitVec.ofNat 8 v

/-- The low 16 bits of an integer, `v & 0xFFFF`. -/
def toWord (v : Nat) : Word :=
  BitVec.ofNat 16 v

/-- `getSignedByte(byte)`, `sext_8` (R94): only the low 8 bits of the argument matter. -/
def signedByte (v : Nat) : Int :=
  let b := v % 0x100
  if b < 0x80 then b else (b % 0x80 : Nat) - 0x80

/-- `getTwoComplement(byte)` (R95). -/
def twoComplement (b : Byte) : Byte :=
  toByte (0x100 - b.toNat)

end Sys2Proof
end

