-- ==== Sys2Proof/Syntax.lean ====
section
/-! DEFINITION. The syntax of CORE: the 56 mnemonics, the thirteen formats (IMP and the twelve modes of the resolver), the
names of registers and flags, one constructor of `Instr` for each of the 151 rows of the opcode table, the breakpoint values,
and the requests the host hands to the observer. -/

namespace Sys2Proof

/-- The modes of the resolver that have an effective address and move one byte (R110, R113 to R115, R117 to R119, R121, R122). -/
inductive MemMode where
  | zp | zpx | zpy | abs | absx | absy | indx | indy
  deriving DecidableEq, Repr

/-- The twelve modes of the resolver (R71): Accumulator, Immediate, Relative, Indirect and the eight of `MemMode`. -/
inductive Mode where
  | acc | imm | rel | ind
  | mem (m : MemMode)
  deriving DecidableEq, Repr

/-- The thirteen formats (R71): the operand-less IMP, which never calls the resolver, and the twelve modes. -/
inductive Format where
  | implied
  | mode (m : Mode)
  deriving DecidableEq, Repr

/-- The 56 mnemonics (R76). -/
inductive Mnemonic where
  | adc | sbc | and | ora | eor | cmp | cpx | cpy | bit
  | asl | lsr | rol | ror | inc | dec | inx | iny | dex | dey
  | lda | ldx | ldy | sta | stx | sty | tax | tay | txa | tya | tsx | txs
  | bcc | bcs | beq | bne | bmi | bpl | bvc | bvs | jmp | jsr | rts
  | pha | php | pla | plp | clc | sec | cli | sei | cld | sed | clv | nop | brk | rti
  deriving DecidableEq, Repr

/-- The instructions: one constructor per row of the opcode table (R74). A one-byte operand is the byte `d`, a two-byte
operand the word `w` = h:l (R71, R73). Every operand value is legal (R79), so the types leave nothing to check. -/
inductive Instr where
  -- 43: arithmetic, logic and compare
  | adcImm (d : Byte)
  | adcZp (d : Byte)
  | adcZpx (d : Byte)
  | adcAbs (w : Word)
  | adcAbsx (w : Word)
  | adcAbsy (w : Word)
  | adcIndx (d : Byte)
  | adcIndy (d : Byte)
  | sbcImm (d : Byte)
  | sbcZp (d : Byte)
  | sbcZpx (d : Byte)
  | sbcAbs (w : Word)
  | sbcAbsx (w : Word)
  | sbcAbsy (w : Word)
  | sbcIndx (d : Byte)
  | sbcIndy (d : Byte)
  | andImm (d : Byte)
  | andZp (d : Byte)
  | andZpx (d : Byte)
  | andAbs (w : Word)
  | andAbsx (w : Word)
  | andAbsy (w : Word)
  | andIndx (d : Byte)
  | andIndy (d : Byte)
  | oraImm (d : Byte)
  | oraZp (d : Byte)
  | oraZpx (d : Byte)
  | oraAbs (w : Word)
  | oraAbsx (w : Word)
  | oraAbsy (w : Word)
  | oraIndx (d : Byte)
  | oraIndy (d : Byte)
  | eorImm (d : Byte)
  | eorZp (d : Byte)
  | eorZpx (d : Byte)
  | eorAbs (w : Word)
  | eorAbsx (w : Word)
  | eorAbsy (w : Word)
  | eorIndx (d : Byte)
  | eorIndy (d : Byte)
  | cmpImm (d : Byte)
  | cmpZp (d : Byte)
  | cmpZpx (d : Byte)
  | cmpAbs (w : Word)
  | cmpAbsx (w : Word)
  | cmpAbsy (w : Word)
  | cmpIndx (d : Byte)
  | cmpIndy (d : Byte)
  | cpxImm (d : Byte)
  | cpxZp (d : Byte)
  | cpxAbs (w : Word)
  | cpyImm (d : Byte)
  | cpyZp (d : Byte)
  | cpyAbs (w : Word)
  | bitZp (d : Byte)
  | bitAbs (w : Word)
  -- 44: shift, rotate, increment and decrement
  | aslAcc
  | aslZp (d : Byte)
  | aslZpx (d : Byte)
  | aslAbs (w : Word)
  | aslAbsx (w : Word)
  | lsrAcc
  | lsrZp (d : Byte)
  | lsrZpx (d : Byte)
  | lsrAbs (w : Word)
  | lsrAbsx (w : Word)
  | rolAcc
  | rolZp (d : Byte)
  | rolZpx (d : Byte)
  | rolAbs (w : Word)
  | rolAbsx (w : Word)
  | rorAcc
  | rorZp (d : Byte)
  | rorZpx (d : Byte)
  | rorAbs (w : Word)
  | rorAbsx (w : Word)
  | incZp (d : Byte)
  | incZpx (d : Byte)
  | incAbs (w : Word)
  | incAbsx (w : Word)
  | decZp (d : Byte)
  | decZpx (d : Byte)
  | decAbs (w : Word)
  | decAbsx (w : Word)
  | inx
  | iny
  | dex
  | dey
  -- 45: load, store and transfer
  | ldaImm (d : Byte)
  | ldaZp (d : Byte)
  | ldaZpx (d : Byte)
  | ldaAbs (w : Word)
  | ldaAbsx (w : Word)
  | ldaAbsy (w : Word)
  | ldaIndx (d : Byte)
  | ldaIndy (d : Byte)
  | ldxImm (d : Byte)
  | ldxZp (d : Byte)
  | ldxZpy (d : Byte)
  | ldxAbs (w : Word)
  | ldxAbsy (w : Word)
  | ldyImm (d : Byte)
  | ldyZp (d : Byte)
  | ldyZpx (d : Byte)
  | ldyAbs (w : Word)
  | ldyAbsx (w : Word)
  | staZp (d : Byte)
  | staZpx (d : Byte)
  | staAbs (w : Word)
  | staAbsx (w : Word)
  | staAbsy (w : Word)
  | staIndx (d : Byte)
  | staIndy (d : Byte)
  | stxZp (d : Byte)
  | stxZpy (d : Byte)
  | stxAbs (w : Word)
  | styZp (d : Byte)
  | styZpx (d : Byte)
  | styAbs (w : Word)
  | tax
  | tay
  | txa
  | tya
  | tsx
  | txs
  -- 46: branch, jump and subroutine
  | bcc (d : Byte)
  | bcs (d : Byte)
  | beq (d : Byte)
  | bne (d : Byte)
  | bmi (d : Byte)
  | bpl (d : Byte)
  | bvc (d : Byte)
  | bvs (d : Byte)
  | jmpAbs (w : Word)
  | jmpInd (w : Word)
  | jsr (w : Word)
  | rts
  -- 47: stack, flag and system
  | pha
  | php
  | pla
  | plp
  | clc
  | sec
  | cli
  | sei
  | cld
  | sed
  | clv
  | nop
  | brk
  | rti
  deriving DecidableEq, Repr

/-- The six registers (R10), by name. -/
inductive RegName where
  | a | x | y | sp | p | pc
  deriving DecidableEq, Repr

/-- The eight bits of `P` (R14). -/
inductive Flag where
  | carry | zero | interruptDisable | decimalMode | breakCommand | unused | overflow | negative
  deriving DecidableEq, Repr

/-- What a memory breakpoint watches (R266). -/
inductive Access where
  | read | write
  deriving DecidableEq, Repr

/-- The value test of a memory breakpoint (R266). -/
inductive Predicate where
  | equalTo (v : Byte)
  | range (lo hi : Byte)
  deriving DecidableEq, Repr

/-- Breakpoint values (R266). -/
inductive Breakpoint where
  | address (pc : Word)
  | memory (address : Word) (access : Access) (predicate : Predicate)
  | instructionCount (n : Nat)
  | resetVector
  deriving DecidableEq, Repr

/-- The argument of `addMemoryBreakpoint` as the host writes it (R275), well formed or not (R276). -/
structure MemoryRequest where
  address             : Nat
  equalsTo            : Option Nat
  greaterThanOrEquals : Option Nat
  lessThanOrEquals    : Option Nat
  onRead              : Bool
  onWrite             : Bool
  deriving DecidableEq, Repr

/-- The argument of `breakOn` as the host writes it (R275), well formed or not (R276). -/
structure BreakOnRequest where
  insExecuted   : Option Nat
  atResetVector : Bool
  deriving DecidableEq, Repr

end Sys2Proof
end

