-- ==== Sys2Proof/Machine/Formats.lean ====
section
/-! DEFINITION. The number of operand bytes of each format (spec 30_encoding.md section 1). -/

namespace Sys2Proof

/-- `OperandBytes(format)` (R72). -/
def Format.operandBytes : Format → Nat
  | .implied | .mode .acc => 0
  | .mode .imm | .mode .rel => 1
  | .mode (.mem .zp) | .mode (.mem .zpx) | .mode (.mem .zpy) => 1
  | .mode (.mem .indx) | .mode (.mem .indy) => 1
  | .mode .ind => 2
  | .mode (.mem .abs) | .mode (.mem .absx) | .mode (.mem .absy) => 2

end Sys2Proof
end

