-- ==== Sys2Proof/WellFormed.lean ====
section
/-! DEFINITION. The checks on what the host hands in. An `Instr` needs none: its operand fields have the operand's width and
every operand value is legal (R79). A tuple of `Execute` must bring the operand its format needs (R83), and a breakpoint
request must be of one of the shapes of R275 (R276). -/

namespace Sys2Proof

/-- A tuple has the operand its format needs (R83: a missing operand is a contract violation, a surplus one is ignored). -/
def Format.operandPresent (f : Format) (operand : Option Nat) : Bool :=
  f.operandBytes == 0 || operand.isSome

/-- Exactly one of `onRead` and `onWrite` (R276: "both or neither" is malformed). -/
def MemoryRequest.oneAccess (r : MemoryRequest) : Bool :=
  r.onRead != r.onWrite

/-- Exactly one predicate form, a range with both its bounds (R276). -/
def MemoryRequest.onePredicate (r : MemoryRequest) : Bool :=
  match r.equalsTo, r.greaterThanOrEquals, r.lessThanOrEquals with
  | some _, none, none => true
  | none, some _, some _ => true
  | _, _, _ => false

/-- A well-formed `addMemoryBreakpoint` request (R275, R276). -/
def MemoryRequest.wellFormed (r : MemoryRequest) : Bool :=
  r.oneAccess && r.onePredicate

/-- A well-formed `breakOn` request: one of its two forms (R275, R276). -/
def BreakOnRequest.wellFormed (r : BreakOnRequest) : Bool :=
  r.insExecuted.isSome != r.atResetVector

end Sys2Proof
end

