-- ==== Sys2Proof/Decode.lean ====
section
/-! DEFINITION. The decoder and the encoder. `opcodeMap` is the map of spec 30_encoding.md section 4 (R74), row = high nibble,
column = low nibble; `Instr.descriptor` is the by-mnemonic list of the same section, from which `encode` is written. Opcode 0x69,
0x6C and 0x00 stand in the source (R75); the other rows are the spec's own (R74). -/

namespace Sys2Proof

/-! ### Descriptors and the encoder -/

/-- A descriptor of the opcode map: opcode byte, mnemonic and format (R74, R132). -/
structure Descriptor where
  opcode   : Byte
  mnemonic : Mnemonic
  format   : Format
  deriving DecidableEq, Repr

/-- The descriptor of each instruction (R74, the list by mnemonic). -/
def Instr.descriptor : Instr → Descriptor
  | .adcImm _ => ⟨0x69#8, .adc, .mode .imm⟩
  | .adcZp _ => ⟨0x65#8, .adc, .mode (.mem .zp)⟩
  | .adcZpx _ => ⟨0x75#8, .adc, .mode (.mem .zpx)⟩
  | .adcAbs _ => ⟨0x6D#8, .adc, .mode (.mem .abs)⟩
  | .adcAbsx _ => ⟨0x7D#8, .adc, .mode (.mem .absx)⟩
  | .adcAbsy _ => ⟨0x79#8, .adc, .mode (.mem .absy)⟩
  | .adcIndx _ => ⟨0x61#8, .adc, .mode (.mem .indx)⟩
  | .adcIndy _ => ⟨0x71#8, .adc, .mode (.mem .indy)⟩
  | .sbcImm _ => ⟨0xE9#8, .sbc, .mode .imm⟩
  | .sbcZp _ => ⟨0xE5#8, .sbc, .mode (.mem .zp)⟩
  | .sbcZpx _ => ⟨0xF5#8, .sbc, .mode (.mem .zpx)⟩
  | .sbcAbs _ => ⟨0xED#8, .sbc, .mode (.mem .abs)⟩
  | .sbcAbsx _ => ⟨0xFD#8, .sbc, .mode (.mem .absx)⟩
  | .sbcAbsy _ => ⟨0xF9#8, .sbc, .mode (.mem .absy)⟩
  | .sbcIndx _ => ⟨0xE1#8, .sbc, .mode (.mem .indx)⟩
  | .sbcIndy _ => ⟨0xF1#8, .sbc, .mode (.mem .indy)⟩
  | .andImm _ => ⟨0x29#8, .and, .mode .imm⟩
  | .andZp _ => ⟨0x25#8, .and, .mode (.mem .zp)⟩
  | .andZpx _ => ⟨0x35#8, .and, .mode (.mem .zpx)⟩
  | .andAbs _ => ⟨0x2D#8, .and, .mode (.mem .abs)⟩
  | .andAbsx _ => ⟨0x3D#8, .and, .mode (.mem .absx)⟩
  | .andAbsy _ => ⟨0x39#8, .and, .mode (.mem .absy)⟩
  | .andIndx _ => ⟨0x21#8, .and, .mode (.mem .indx)⟩
  | .andIndy _ => ⟨0x31#8, .and, .mode (.mem .indy)⟩
  | .oraImm _ => ⟨0x09#8, .ora, .mode .imm⟩
  | .oraZp _ => ⟨0x05#8, .ora, .mode (.mem .zp)⟩
  | .oraZpx _ => ⟨0x15#8, .ora, .mode (.mem .zpx)⟩
  | .oraAbs _ => ⟨0x0D#8, .ora, .mode (.mem .abs)⟩
  | .oraAbsx _ => ⟨0x1D#8, .ora, .mode (.mem .absx)⟩
  | .oraAbsy _ => ⟨0x19#8, .ora, .mode (.mem .absy)⟩
  | .oraIndx _ => ⟨0x01#8, .ora, .mode (.mem .indx)⟩
  | .oraIndy _ => ⟨0x11#8, .ora, .mode (.mem .indy)⟩
  | .eorImm _ => ⟨0x49#8, .eor, .mode .imm⟩
  | .eorZp _ => ⟨0x45#8, .eor, .mode (.mem .zp)⟩
  | .eorZpx _ => ⟨0x55#8, .eor, .mode (.mem .zpx)⟩
  | .eorAbs _ => ⟨0x4D#8, .eor, .mode (.mem .abs)⟩
  | .eorAbsx _ => ⟨0x5D#8, .eor, .mode (.mem .absx)⟩
  | .eorAbsy _ => ⟨0x59#8, .eor, .mode (.mem .absy)⟩
  | .eorIndx _ => ⟨0x41#8, .eor, .mode (.mem .indx)⟩
  | .eorIndy _ => ⟨0x51#8, .eor, .mode (.mem .indy)⟩
  | .cmpImm _ => ⟨0xC9#8, .cmp, .mode .imm⟩
  | .cmpZp _ => ⟨0xC5#8, .cmp, .mode (.mem .zp)⟩
  | .cmpZpx _ => ⟨0xD5#8, .cmp, .mode (.mem .zpx)⟩
  | .cmpAbs _ => ⟨0xCD#8, .cmp, .mode (.mem .abs)⟩
  | .cmpAbsx _ => ⟨0xDD#8, .cmp, .mode (.mem .absx)⟩
  | .cmpAbsy _ => ⟨0xD9#8, .cmp, .mode (.mem .absy)⟩
  | .cmpIndx _ => ⟨0xC1#8, .cmp, .mode (.mem .indx)⟩
  | .cmpIndy _ => ⟨0xD1#8, .cmp, .mode (.mem .indy)⟩
  | .cpxImm _ => ⟨0xE0#8, .cpx, .mode .imm⟩
  | .cpxZp _ => ⟨0xE4#8, .cpx, .mode (.mem .zp)⟩
  | .cpxAbs _ => ⟨0xEC#8, .cpx, .mode (.mem .abs)⟩
  | .cpyImm _ => ⟨0xC0#8, .cpy, .mode .imm⟩
  | .cpyZp _ => ⟨0xC4#8, .cpy, .mode (.mem .zp)⟩
  | .cpyAbs _ => ⟨0xCC#8, .cpy, .mode (.mem .abs)⟩
  | .bitZp _ => ⟨0x24#8, .bit, .mode (.mem .zp)⟩
  | .bitAbs _ => ⟨0x2C#8, .bit, .mode (.mem .abs)⟩
  | .aslAcc => ⟨0x0A#8, .asl, .mode .acc⟩
  | .aslZp _ => ⟨0x06#8, .asl, .mode (.mem .zp)⟩
  | .aslZpx _ => ⟨0x16#8, .asl, .mode (.mem .zpx)⟩
  | .aslAbs _ => ⟨0x0E#8, .asl, .mode (.mem .abs)⟩
  | .aslAbsx _ => ⟨0x1E#8, .asl, .mode (.mem .absx)⟩
  | .lsrAcc => ⟨0x4A#8, .lsr, .mode .acc⟩
  | .lsrZp _ => ⟨0x46#8, .lsr, .mode (.mem .zp)⟩
  | .lsrZpx _ => ⟨0x56#8, .lsr, .mode (.mem .zpx)⟩
  | .lsrAbs _ => ⟨0x4E#8, .lsr, .mode (.mem .abs)⟩
  | .lsrAbsx _ => ⟨0x5E#8, .lsr, .mode (.mem .absx)⟩
  | .rolAcc => ⟨0x2A#8, .rol, .mode .acc⟩
  | .rolZp _ => ⟨0x26#8, .rol, .mode (.mem .zp)⟩
  | .rolZpx _ => ⟨0x36#8, .rol, .mode (.mem .zpx)⟩
  | .rolAbs _ => ⟨0x2E#8, .rol, .mode (.mem .abs)⟩
  | .rolAbsx _ => ⟨0x3E#8, .rol, .mode (.mem .absx)⟩
  | .rorAcc => ⟨0x6A#8, .ror, .mode .acc⟩
  | .rorZp _ => ⟨0x66#8, .ror, .mode (.mem .zp)⟩
  | .rorZpx _ => ⟨0x76#8, .ror, .mode (.mem .zpx)⟩
  | .rorAbs _ => ⟨0x6E#8, .ror, .mode (.mem .abs)⟩
  | .rorAbsx _ => ⟨0x7E#8, .ror, .mode (.mem .absx)⟩
  | .incZp _ => ⟨0xE6#8, .inc, .mode (.mem .zp)⟩
  | .incZpx _ => ⟨0xF6#8, .inc, .mode (.mem .zpx)⟩
  | .incAbs _ => ⟨0xEE#8, .inc, .mode (.mem .abs)⟩
  | .incAbsx _ => ⟨0xFE#8, .inc, .mode (.mem .absx)⟩
  | .decZp _ => ⟨0xC6#8, .dec, .mode (.mem .zp)⟩
  | .decZpx _ => ⟨0xD6#8, .dec, .mode (.mem .zpx)⟩
  | .decAbs _ => ⟨0xCE#8, .dec, .mode (.mem .abs)⟩
  | .decAbsx _ => ⟨0xDE#8, .dec, .mode (.mem .absx)⟩
  | .inx => ⟨0xE8#8, .inx, .implied⟩
  | .iny => ⟨0xC8#8, .iny, .implied⟩
  | .dex => ⟨0xCA#8, .dex, .implied⟩
  | .dey => ⟨0x88#8, .dey, .implied⟩
  | .ldaImm _ => ⟨0xA9#8, .lda, .mode .imm⟩
  | .ldaZp _ => ⟨0xA5#8, .lda, .mode (.mem .zp)⟩
  | .ldaZpx _ => ⟨0xB5#8, .lda, .mode (.mem .zpx)⟩
  | .ldaAbs _ => ⟨0xAD#8, .lda, .mode (.mem .abs)⟩
  | .ldaAbsx _ => ⟨0xBD#8, .lda, .mode (.mem .absx)⟩
  | .ldaAbsy _ => ⟨0xB9#8, .lda, .mode (.mem .absy)⟩
  | .ldaIndx _ => ⟨0xA1#8, .lda, .mode (.mem .indx)⟩
  | .ldaIndy _ => ⟨0xB1#8, .lda, .mode (.mem .indy)⟩
  | .ldxImm _ => ⟨0xA2#8, .ldx, .mode .imm⟩
  | .ldxZp _ => ⟨0xA6#8, .ldx, .mode (.mem .zp)⟩
  | .ldxZpy _ => ⟨0xB6#8, .ldx, .mode (.mem .zpy)⟩
  | .ldxAbs _ => ⟨0xAE#8, .ldx, .mode (.mem .abs)⟩
  | .ldxAbsy _ => ⟨0xBE#8, .ldx, .mode (.mem .absy)⟩
  | .ldyImm _ => ⟨0xA0#8, .ldy, .mode .imm⟩
  | .ldyZp _ => ⟨0xA4#8, .ldy, .mode (.mem .zp)⟩
  | .ldyZpx _ => ⟨0xB4#8, .ldy, .mode (.mem .zpx)⟩
  | .ldyAbs _ => ⟨0xAC#8, .ldy, .mode (.mem .abs)⟩
  | .ldyAbsx _ => ⟨0xBC#8, .ldy, .mode (.mem .absx)⟩
  | .staZp _ => ⟨0x85#8, .sta, .mode (.mem .zp)⟩
  | .staZpx _ => ⟨0x95#8, .sta, .mode (.mem .zpx)⟩
  | .staAbs _ => ⟨0x8D#8, .sta, .mode (.mem .abs)⟩
  | .staAbsx _ => ⟨0x9D#8, .sta, .mode (.mem .absx)⟩
  | .staAbsy _ => ⟨0x99#8, .sta, .mode (.mem .absy)⟩
  | .staIndx _ => ⟨0x81#8, .sta, .mode (.mem .indx)⟩
  | .staIndy _ => ⟨0x91#8, .sta, .mode (.mem .indy)⟩
  | .stxZp _ => ⟨0x86#8, .stx, .mode (.mem .zp)⟩
  | .stxZpy _ => ⟨0x96#8, .stx, .mode (.mem .zpy)⟩
  | .stxAbs _ => ⟨0x8E#8, .stx, .mode (.mem .abs)⟩
  | .styZp _ => ⟨0x84#8, .sty, .mode (.mem .zp)⟩
  | .styZpx _ => ⟨0x94#8, .sty, .mode (.mem .zpx)⟩
  | .styAbs _ => ⟨0x8C#8, .sty, .mode (.mem .abs)⟩
  | .tax => ⟨0xAA#8, .tax, .implied⟩
  | .tay => ⟨0xA8#8, .tay, .implied⟩
  | .txa => ⟨0x8A#8, .txa, .implied⟩
  | .tya => ⟨0x98#8, .tya, .implied⟩
  | .tsx => ⟨0xBA#8, .tsx, .implied⟩
  | .txs => ⟨0x9A#8, .txs, .implied⟩
  | .bcc _ => ⟨0x90#8, .bcc, .mode .rel⟩
  | .bcs _ => ⟨0xB0#8, .bcs, .mode .rel⟩
  | .beq _ => ⟨0xF0#8, .beq, .mode .rel⟩
  | .bne _ => ⟨0xD0#8, .bne, .mode .rel⟩
  | .bmi _ => ⟨0x30#8, .bmi, .mode .rel⟩
  | .bpl _ => ⟨0x10#8, .bpl, .mode .rel⟩
  | .bvc _ => ⟨0x50#8, .bvc, .mode .rel⟩
  | .bvs _ => ⟨0x70#8, .bvs, .mode .rel⟩
  | .jmpAbs _ => ⟨0x4C#8, .jmp, .mode (.mem .abs)⟩
  | .jmpInd _ => ⟨0x6C#8, .jmp, .mode .ind⟩
  | .jsr _ => ⟨0x20#8, .jsr, .mode (.mem .abs)⟩
  | .rts => ⟨0x60#8, .rts, .implied⟩
  | .pha => ⟨0x48#8, .pha, .implied⟩
  | .php => ⟨0x08#8, .php, .implied⟩
  | .pla => ⟨0x68#8, .pla, .implied⟩
  | .plp => ⟨0x28#8, .plp, .implied⟩
  | .clc => ⟨0x18#8, .clc, .implied⟩
  | .sec => ⟨0x38#8, .sec, .implied⟩
  | .cli => ⟨0x58#8, .cli, .implied⟩
  | .sei => ⟨0x78#8, .sei, .implied⟩
  | .cld => ⟨0xD8#8, .cld, .implied⟩
  | .sed => ⟨0xF8#8, .sed, .implied⟩
  | .clv => ⟨0xB8#8, .clv, .implied⟩
  | .nop => ⟨0xEA#8, .nop, .implied⟩
  | .brk => ⟨0x00#8, .brk, .implied⟩
  | .rti => ⟨0x40#8, .rti, .implied⟩

/-- The decoded operand value: none for IMP and ACC, a zero-extended byte or a word otherwise (R71, R73). -/
def Instr.operand : Instr → Option Word
  | .adcImm d => some (zeroExtend d)
  | .adcZp d => some (zeroExtend d)
  | .adcZpx d => some (zeroExtend d)
  | .adcAbs w => some w
  | .adcAbsx w => some w
  | .adcAbsy w => some w
  | .adcIndx d => some (zeroExtend d)
  | .adcIndy d => some (zeroExtend d)
  | .sbcImm d => some (zeroExtend d)
  | .sbcZp d => some (zeroExtend d)
  | .sbcZpx d => some (zeroExtend d)
  | .sbcAbs w => some w
  | .sbcAbsx w => some w
  | .sbcAbsy w => some w
  | .sbcIndx d => some (zeroExtend d)
  | .sbcIndy d => some (zeroExtend d)
  | .andImm d => some (zeroExtend d)
  | .andZp d => some (zeroExtend d)
  | .andZpx d => some (zeroExtend d)
  | .andAbs w => some w
  | .andAbsx w => some w
  | .andAbsy w => some w
  | .andIndx d => some (zeroExtend d)
  | .andIndy d => some (zeroExtend d)
  | .oraImm d => some (zeroExtend d)
  | .oraZp d => some (zeroExtend d)
  | .oraZpx d => some (zeroExtend d)
  | .oraAbs w => some w
  | .oraAbsx w => some w
  | .oraAbsy w => some w
  | .oraIndx d => some (zeroExtend d)
  | .oraIndy d => some (zeroExtend d)
  | .eorImm d => some (zeroExtend d)
  | .eorZp d => some (zeroExtend d)
  | .eorZpx d => some (zeroExtend d)
  | .eorAbs w => some w
  | .eorAbsx w => some w
  | .eorAbsy w => some w
  | .eorIndx d => some (zeroExtend d)
  | .eorIndy d => some (zeroExtend d)
  | .cmpImm d => some (zeroExtend d)
  | .cmpZp d => some (zeroExtend d)
  | .cmpZpx d => some (zeroExtend d)
  | .cmpAbs w => some w
  | .cmpAbsx w => some w
  | .cmpAbsy w => some w
  | .cmpIndx d => some (zeroExtend d)
  | .cmpIndy d => some (zeroExtend d)
  | .cpxImm d => some (zeroExtend d)
  | .cpxZp d => some (zeroExtend d)
  | .cpxAbs w => some w
  | .cpyImm d => some (zeroExtend d)
  | .cpyZp d => some (zeroExtend d)
  | .cpyAbs w => some w
  | .bitZp d => some (zeroExtend d)
  | .bitAbs w => some w
  | .aslAcc => none
  | .aslZp d => some (zeroExtend d)
  | .aslZpx d => some (zeroExtend d)
  | .aslAbs w => some w
  | .aslAbsx w => some w
  | .lsrAcc => none
  | .lsrZp d => some (zeroExtend d)
  | .lsrZpx d => some (zeroExtend d)
  | .lsrAbs w => some w
  | .lsrAbsx w => some w
  | .rolAcc => none
  | .rolZp d => some (zeroExtend d)
  | .rolZpx d => some (zeroExtend d)
  | .rolAbs w => some w
  | .rolAbsx w => some w
  | .rorAcc => none
  | .rorZp d => some (zeroExtend d)
  | .rorZpx d => some (zeroExtend d)
  | .rorAbs w => some w
  | .rorAbsx w => some w
  | .incZp d => some (zeroExtend d)
  | .incZpx d => some (zeroExtend d)
  | .incAbs w => some w
  | .incAbsx w => some w
  | .decZp d => some (zeroExtend d)
  | .decZpx d => some (zeroExtend d)
  | .decAbs w => some w
  | .decAbsx w => some w
  | .inx => none
  | .iny => none
  | .dex => none
  | .dey => none
  | .ldaImm d => some (zeroExtend d)
  | .ldaZp d => some (zeroExtend d)
  | .ldaZpx d => some (zeroExtend d)
  | .ldaAbs w => some w
  | .ldaAbsx w => some w
  | .ldaAbsy w => some w
  | .ldaIndx d => some (zeroExtend d)
  | .ldaIndy d => some (zeroExtend d)
  | .ldxImm d => some (zeroExtend d)
  | .ldxZp d => some (zeroExtend d)
  | .ldxZpy d => some (zeroExtend d)
  | .ldxAbs w => some w
  | .ldxAbsy w => some w
  | .ldyImm d => some (zeroExtend d)
  | .ldyZp d => some (zeroExtend d)
  | .ldyZpx d => some (zeroExtend d)
  | .ldyAbs w => some w
  | .ldyAbsx w => some w
  | .staZp d => some (zeroExtend d)
  | .staZpx d => some (zeroExtend d)
  | .staAbs w => some w
  | .staAbsx w => some w
  | .staAbsy w => some w
  | .staIndx d => some (zeroExtend d)
  | .staIndy d => some (zeroExtend d)
  | .stxZp d => some (zeroExtend d)
  | .stxZpy d => some (zeroExtend d)
  | .stxAbs w => some w
  | .styZp d => some (zeroExtend d)
  | .styZpx d => some (zeroExtend d)
  | .styAbs w => some w
  | .tax => none
  | .tay => none
  | .txa => none
  | .tya => none
  | .tsx => none
  | .txs => none
  | .bcc d => some (zeroExtend d)
  | .bcs d => some (zeroExtend d)
  | .beq d => some (zeroExtend d)
  | .bne d => some (zeroExtend d)
  | .bmi d => some (zeroExtend d)
  | .bpl d => some (zeroExtend d)
  | .bvc d => some (zeroExtend d)
  | .bvs d => some (zeroExtend d)
  | .jmpAbs w => some w
  | .jmpInd w => some w
  | .jsr w => some w
  | .rts => none
  | .pha => none
  | .php => none
  | .pla => none
  | .plp => none
  | .clc => none
  | .sec => none
  | .cli => none
  | .sei => none
  | .cld => none
  | .sed => none
  | .clv => none
  | .nop => none
  | .brk => none
  | .rti => none

/-- The opcode byte of an instruction. -/
def Instr.opcode (i : Instr) : Byte := i.descriptor.opcode

/-- The mnemonic of an instruction. -/
def Instr.mnemonic (i : Instr) : Mnemonic := i.descriptor.mnemonic

/-- The format of an instruction. -/
def Instr.format (i : Instr) : Format := i.descriptor.format

/-- `Length(opcode) = 1 + OperandBytes(Format(opcode))` (R72). -/
def Instr.length (i : Instr) : Nat := 1 + i.format.operandBytes

/-- The operand bytes in memory order, low byte first (R71, R73). -/
def operandBytesOf (n : Nat) (w : Word) : List Byte :=
  [lowByte w, highByte w].take n

/-- The bytes of an instruction: its opcode byte, then its operand bytes (R70, R71). -/
def encode (i : Instr) : List Byte :=
  i.opcode :: operandBytesOf i.format.operandBytes (i.operand.getD 0#16)

/-! ### The opcode map and the decoder -/

/-- What an opcode byte selects: nothing (R78), an instruction without operand bytes, or one that takes a byte or a word. -/
inductive OpForm where
  | unmapped
  | bare (i : Instr)
  | byte (f : Byte → Instr)
  | word (f : Word → Instr)

/-- Row 0x of the map (R74). -/
def opcodeRow0 : List OpForm :=
  [.bare .brk, .byte .oraIndx, .unmapped, .unmapped, .unmapped, .byte .oraZp, .byte .aslZp, .unmapped,
   .bare .php, .byte .oraImm, .bare .aslAcc, .unmapped, .unmapped, .word .oraAbs, .word .aslAbs, .unmapped]

/-- Row 1x of the map (R74). -/
def opcodeRow1 : List OpForm :=
  [.byte .bpl, .byte .oraIndy, .unmapped, .unmapped, .unmapped, .byte .oraZpx, .byte .aslZpx, .unmapped,
   .bare .clc, .word .oraAbsy, .unmapped, .unmapped, .unmapped, .word .oraAbsx, .word .aslAbsx, .unmapped]

/-- Row 2x of the map (R74). -/
def opcodeRow2 : List OpForm :=
  [.word .jsr, .byte .andIndx, .unmapped, .unmapped, .byte .bitZp, .byte .andZp, .byte .rolZp, .unmapped,
   .bare .plp, .byte .andImm, .bare .rolAcc, .unmapped, .word .bitAbs, .word .andAbs, .word .rolAbs, .unmapped]

/-- Row 3x of the map (R74). -/
def opcodeRow3 : List OpForm :=
  [.byte .bmi, .byte .andIndy, .unmapped, .unmapped, .unmapped, .byte .andZpx, .byte .rolZpx, .unmapped,
   .bare .sec, .word .andAbsy, .unmapped, .unmapped, .unmapped, .word .andAbsx, .word .rolAbsx, .unmapped]

/-- Row 4x of the map (R74). -/
def opcodeRow4 : List OpForm :=
  [.bare .rti, .byte .eorIndx, .unmapped, .unmapped, .unmapped, .byte .eorZp, .byte .lsrZp, .unmapped,
   .bare .pha, .byte .eorImm, .bare .lsrAcc, .unmapped, .word .jmpAbs, .word .eorAbs, .word .lsrAbs, .unmapped]

/-- Row 5x of the map (R74). -/
def opcodeRow5 : List OpForm :=
  [.byte .bvc, .byte .eorIndy, .unmapped, .unmapped, .unmapped, .byte .eorZpx, .byte .lsrZpx, .unmapped,
   .bare .cli, .word .eorAbsy, .unmapped, .unmapped, .unmapped, .word .eorAbsx, .word .lsrAbsx, .unmapped]

/-- Row 6x of the map (R74). -/
def opcodeRow6 : List OpForm :=
  [.bare .rts, .byte .adcIndx, .unmapped, .unmapped, .unmapped, .byte .adcZp, .byte .rorZp, .unmapped,
   .bare .pla, .byte .adcImm, .bare .rorAcc, .unmapped, .word .jmpInd, .word .adcAbs, .word .rorAbs, .unmapped]

/-- Row 7x of the map (R74). -/
def opcodeRow7 : List OpForm :=
  [.byte .bvs, .byte .adcIndy, .unmapped, .unmapped, .unmapped, .byte .adcZpx, .byte .rorZpx, .unmapped,
   .bare .sei, .word .adcAbsy, .unmapped, .unmapped, .unmapped, .word .adcAbsx, .word .rorAbsx, .unmapped]

/-- Row 8x of the map (R74). -/
def opcodeRow8 : List OpForm :=
  [.unmapped, .byte .staIndx, .unmapped, .unmapped, .byte .styZp, .byte .staZp, .byte .stxZp, .unmapped,
   .bare .dey, .unmapped, .bare .txa, .unmapped, .word .styAbs, .word .staAbs, .word .stxAbs, .unmapped]

/-- Row 9x of the map (R74). -/
def opcodeRow9 : List OpForm :=
  [.byte .bcc, .byte .staIndy, .unmapped, .unmapped, .byte .styZpx, .byte .staZpx, .byte .stxZpy, .unmapped,
   .bare .tya, .word .staAbsy, .bare .txs, .unmapped, .unmapped, .word .staAbsx, .unmapped, .unmapped]

/-- Row Ax of the map (R74). -/
def opcodeRowA : List OpForm :=
  [.byte .ldyImm, .byte .ldaIndx, .byte .ldxImm, .unmapped, .byte .ldyZp, .byte .ldaZp, .byte .ldxZp, .unmapped,
   .bare .tay, .byte .ldaImm, .bare .tax, .unmapped, .word .ldyAbs, .word .ldaAbs, .word .ldxAbs, .unmapped]

/-- Row Bx of the map (R74). -/
def opcodeRowB : List OpForm :=
  [.byte .bcs, .byte .ldaIndy, .unmapped, .unmapped, .byte .ldyZpx, .byte .ldaZpx, .byte .ldxZpy, .unmapped,
   .bare .clv, .word .ldaAbsy, .bare .tsx, .unmapped, .word .ldyAbsx, .word .ldaAbsx, .word .ldxAbsy, .unmapped]

/-- Row Cx of the map (R74). -/
def opcodeRowC : List OpForm :=
  [.byte .cpyImm, .byte .cmpIndx, .unmapped, .unmapped, .byte .cpyZp, .byte .cmpZp, .byte .decZp, .unmapped,
   .bare .iny, .byte .cmpImm, .bare .dex, .unmapped, .word .cpyAbs, .word .cmpAbs, .word .decAbs, .unmapped]

/-- Row Dx of the map (R74). -/
def opcodeRowD : List OpForm :=
  [.byte .bne, .byte .cmpIndy, .unmapped, .unmapped, .unmapped, .byte .cmpZpx, .byte .decZpx, .unmapped,
   .bare .cld, .word .cmpAbsy, .unmapped, .unmapped, .unmapped, .word .cmpAbsx, .word .decAbsx, .unmapped]

/-- Row Ex of the map (R74). -/
def opcodeRowE : List OpForm :=
  [.byte .cpxImm, .byte .sbcIndx, .unmapped, .unmapped, .byte .cpxZp, .byte .sbcZp, .byte .incZp, .unmapped,
   .bare .inx, .byte .sbcImm, .bare .nop, .unmapped, .word .cpxAbs, .word .sbcAbs, .word .incAbs, .unmapped]

/-- Row Fx of the map (R74). -/
def opcodeRowF : List OpForm :=
  [.byte .beq, .byte .sbcIndy, .unmapped, .unmapped, .unmapped, .byte .sbcZpx, .byte .incZpx, .unmapped,
   .bare .sed, .word .sbcAbsy, .unmapped, .unmapped, .unmapped, .word .sbcAbsx, .word .incAbsx, .unmapped]

/-- The opcode map (R74), sixteen rows of sixteen. -/
def opcodeMap : List (List OpForm) :=
  [opcodeRow0, opcodeRow1, opcodeRow2, opcodeRow3, opcodeRow4, opcodeRow5, opcodeRow6, opcodeRow7] ++
  [opcodeRow8, opcodeRow9, opcodeRowA, opcodeRowB, opcodeRowC, opcodeRowD, opcodeRowE, opcodeRowF]

/-- The map's entry for an opcode byte. All eight bits are the opcode (R70). -/
def opForm (opcode : Byte) : OpForm :=
  (opcodeMap.getD (opcode.toNat / 16) []).getD (opcode.toNat % 16) .unmapped

/-- The opcode byte is in the opcode map (R74, R78). -/
def mapped (opcode : Byte) : Bool :=
  match opForm opcode with
  | .unmapped => false
  | _ => true

/-- The one way decoding fails (R78, R132). -/
inductive DecodeError where
  /-- The opcode byte is not in the map. -/
  | unknownOpcode (opcode : Byte)
  deriving DecidableEq, Repr

/-- Decodes the bytes that `read` gives, `read 0` the opcode byte and `read 1`, `read 2` the bytes after it. Operand bytes are
read only when the opcode needs them (R73, R131). -/
def decode (read : Nat → Byte) : Except DecodeError Instr :=
  match opForm (read 0) with
  | .unmapped => .error (.unknownOpcode (read 0))
  | .bare i => .ok i
  | .byte f => .ok (f (read 1))
  | .word f => .ok (f (wordOf (read 2) (read 1)))

/-- Byte `k` of a number whose bit 0 is the lowest bit of byte 0. -/
def byteOf (w k : Nat) : Byte :=
  toByte (w / 2 ^ (8 * k))

/-- The instruction the decoder reads from the low `nbits` bits of `w`, every bit above them 0. -/
def decodeTableWord (nbits w : Nat) : Option Instr :=
  match decode (byteOf (w % 2 ^ nbits)) with
  | .ok i => some i
  | .error _ => none

/-- The page-cross-check set (R77): the 23 read-only indexed opcodes. -/
def pageCrossCheckSet : List Byte :=
  [0x1D#8, 0x3D#8, 0x5D#8, 0x7D#8, 0xBC#8, 0xBD#8, 0xDD#8, 0xFD#8] ++
  [0x19#8, 0x39#8, 0x59#8, 0x79#8, 0xB9#8, 0xBE#8, 0xD9#8, 0xF9#8] ++
  [0x11#8, 0x31#8, 0x51#8, 0x71#8, 0xB1#8, 0xD1#8, 0xF1#8]

end Sys2Proof
end

