-- ==== Sys2Proof/Machine/State.lean ====
section
/-! DEFINITION. The state of CORE as plain data (R10, R20 to R24), the reasons a step or a host operation stops, and the state
right after `PowerUp` (R26). -/

namespace Sys2Proof.Machine

/-- The faults. `UnknownInstruction(opcode)` is the machine's one exception (R250, R252). -/
inductive Fault where
  /-- Raised by `step` and by the host's `Execute` for an opcode byte outside the opcode map, before any side effect (R138,
  R250, R251). The spec names this outcome; safe. -/
  | unknownInstruction (opcode : Byte)
  deriving DecidableEq, Repr

/-- The refusals: inputs to which the spec gives no meaning. No instruction raises one. -/
inductive Refusal where
  /-- Kept for an instruction that has no meaning yet; no arm of `exec` uses it. Safe. -/
  | notModelled (mnemonic : String)
  /-- Raised by the host's `Execute` for a tuple that lacks the operand its format needs (R83). Safe. -/
  | missingOperand (opcode : Byte)
  /-- Raised by breakpoint registration for a malformed request (R276). Safe. -/
  | malformedBreakpoint
  /-- Raised by the host's `storeByAddressingMode` for Immediate, Relative or Indirect, which have no `Set` (R110). Safe. -/
  | readOnlyMode (mode : Mode)
  /-- Raised by every state-changing host operation (`HostOp`) while the drive loop is running (R275, R295; log 7). Safe. -/
  | driveLoopRunning
  deriving DecidableEq, Repr

/-- The record `lastExecuted` without its `asm` string (R20, R136; log 13). -/
structure Executed where
  opcode  : Byte
  operand : Option Word
  deriving DecidableEq, Repr

/-- The observer's two states (R265). -/
inductive RunState where
  | running | paused
  deriving DecidableEq, Repr

/-- The observer's state (R23, R265). -/
structure Observer where
  /-- `obs.state`. -/
  run          : RunState
  /-- Whether `run()` has been called since construction. -/
  started      : Bool
  /-- In registration order (R266, R275). -/
  breakpoints  : List Breakpoint
  /-- Instructions retired by the drive loop since the most recent `run()` that started or resumed it. -/
  retired      : Nat
  /-- Set by `PowerUp` and `Reset`. -/
  resetPending : Bool
  deriving DecidableEq, Repr

/-- The state of the machine: register file (R10), memory cells (R24), the three records (R20 to R22), the observer (R23). -/
structure State where
  a  : Byte
  x  : Byte
  y  : Byte
  sp : Byte
  p  : Byte
  pc : Word
  /-- The cells in canonical form: keys rising, none listed at the value an unlisted cell reads as (log 1). -/
  mem             : List Host.Cell
  lastExecuted    : Option Executed
  lastExtraCycles : Nat
  /-- The address presented, before mirroring, and the byte stored (R22). -/
  lastWrite       : Option (Word × Byte)
  obs             : Observer
  deriving DecidableEq, Repr

/-- The observer at construction (R265), with `resetPending` as `PowerUp` leaves it (R290). -/
def Observer.afterPowerUp : Observer :=
  { run := .running, started := false, breakpoints := [], retired := 0, resetPending := true }

/-- The state after `PowerUp` (R26, R290) on a memory that lists nothing. `pc` is the word at the reset vector of that memory,
0x0000; the image is the host's to load (log 1, log 2). -/
def State.reset : State :=
  { a := 0x00#8, x := 0x00#8, y := 0x00#8, sp := 0xFD#8, p := 0x34#8, pc := 0x0000#16, mem := [],
    lastExecuted := none, lastExtraCycles := 0, lastWrite := some (0x4017#16, 0x00#8), obs := Observer.afterPowerUp }

end Sys2Proof.Machine
end

