-- ==== Sys2Proof/Machine/Flags.lean ====
section
/-! DEFINITION. The flag algebra of the ALU (spec 40_alu_flag_algebra.md): single-bit access to `P` and the flag updates from
a result, each a function of the value of `P` ("pure bit-manipulation over a status register value"). -/

namespace Sys2Proof.Machine

/-- `bit(flag)` (R14, R90). -/
def flagBit : Flag → Nat
  | .carry => 0
  | .zero => 1
  | .interruptDisable => 2
  | .decimalMode => 3
  | .breakCommand => 4
  | .unused => 5
  | .overflow => 6
  | .negative => 7

/-- The byte with the one bit of the flag, `1 << bit(flag)`. -/
def flagMask (f : Flag) : Byte :=
  1#8 <<< flagBit f

/-- `getFlag(flag)` on a value of `P` (R90). -/
def flagOf (f : Flag) (p : Byte) : Bool :=
  bitValue (flagBit f) p

/-- `setFlag(flag, bit)` on a value of `P` (R91); with `bit` false it is `clearFlag` (R92). -/
def withFlag (f : Flag) (bit : Bool) (p : Byte) : Byte :=
  (p &&& ~~~ flagMask f) ||| (if bit then flagMask f else 0#8)

/-- `updateZeroFlag(result)` (R97): only the low 8 bits are tested. -/
def withZero (result : Nat) (p : Byte) : Byte :=
  withFlag .zero (toByte result == 0#8) p

/-- `updateNegativeFlag(result)` (R98): bit 7 of the result. -/
def withNegative (result : Nat) (p : Byte) : Byte :=
  withFlag .negative (bitValue 7 (toByte result)) p

/-- `SetZN(v)` (R98). -/
def withZN (result : Nat) (p : Byte) : Byte :=
  withNegative result (withZero result p)

/-- The overflow test of `updateOverflowFlag(result, operandA, operandB)` (R99). -/
def overflows (result : Nat) (a b : Byte) : Bool :=
  bitValue 7 a == bitValue 7 b && bitValue 7 (toByte result) != bitValue 7 a

/-- `SetV(result, a, b)` (R99). -/
def withOverflow (result : Nat) (a b : Byte) (p : Byte) : Byte :=
  withFlag .overflow (overflows result a b) p

end Sys2Proof.Machine
end

