-- ==== Sys2Proof/Machine/Ops.lean ====
section
/-! DEFINITION. The named operations over the state: memory cells and mirroring, the load and store primitives, register and
flag access, the stack, the software trap and its return, instruction fetch, and the events at the end of an instruction. -/

namespace Sys2Proof.Machine

/-! ### Memory cells (R24, R41, R46) -/

/-- What a cell that the list does not name reads as (log 1: the spec leaves the initial image open, R54). -/
def Memory.unlisted : Byte := 0x00#8

/-- The keys of the backing cells: RAM, PPU window, and 0x4000..0xFFFF (R24). -/
def Memory.isCell (k : Nat) : Bool :=
  k < Config.ramSize || (Config.ppuBase ≤ k && k < Config.ppuBase + Config.ppuSize) ||
    (Config.unmirroredBase ≤ k && k < Config.addressCount)

/-- The canonical form: keys strictly rising, every key a backing cell, no entry equal to what an unlisted cell reads as. -/
abbrev Memory.wf (m : List Host.Cell) : Prop :=
  m.Pairwise (fun c d => c.1 < d.1) ∧ ∀ c ∈ m, Memory.isCell c.1 = true ∧ c.2 ≠ Memory.unlisted

/-- The byte of cell `k`. -/
def Memory.read : List Host.Cell → Nat → Byte
  | [], _ => Memory.unlisted
  | (k', v) :: rest, k => if k' = k then v else Memory.read rest k

/-- Puts an entry before a list unless it is what an unlisted cell reads as. -/
def Memory.put (k : Nat) (v : Byte) (rest : List Host.Cell) : List Host.Cell :=
  if v = Memory.unlisted then rest else (k, v) :: rest

/-- Sets cell `k` to `v`, keeping the canonical form. -/
def Memory.write : List Host.Cell → Nat → Byte → List Host.Cell
  | [], k, v => Memory.put k v []
  | (k', v') :: rest, k, v =>
    if k < k' then Memory.put k v ((k', v') :: rest)
    else if k = k' then Memory.put k v rest
    else (k', v') :: Memory.write rest k v

/-- The mirroring transform `Map` (R41): the key of the cell behind an address. -/
def cellOf (addr : Word) : Nat :=
  if addr.toNat < Config.ppuBase then addr.toNat % Config.ramSize
  else if addr.toNat < Config.unmirroredBase then Config.ppuBase + addr.toNat % Config.ppuSize
  else addr.toNat

/-! ### Registers: the sole choke point for register mutation (R11, R12) -/

/-- `A <- v`. -/
def State.setA (v : Byte) (s : State) : State := { s with a := v }

/-- `X <- v`. -/
def State.setX (v : Byte) (s : State) : State := { s with x := v }

/-- `Y <- v`. -/
def State.setY (v : Byte) (s : State) : State := { s with y := v }

/-- `SP <- v`. -/
def State.setSP (v : Byte) (s : State) : State := { s with sp := v }

/-- `P <- v`, all eight bits (R15). -/
def State.setP (v : Byte) (s : State) : State := { s with p := v }

/-- `PC <- v`. -/
def State.setPC (v : Word) (s : State) : State := { s with pc := v }

/-! ### Loads and stores (R42 to R45) -/

/-- `MemRead(addr, 1)` (R42). -/
def State.load (addr : Word) (s : State) : Byte :=
  Memory.read s.mem (cellOf addr)

/-- `MemRead(addr, 2)` (R44): little-endian, the second address modulo 65536, each byte mirrored on its own. -/
def State.loadWord (addr : Word) (s : State) : Word :=
  wordOf (s.load (addr + 1#16)) (s.load addr)

/-- Puts a byte into the cell behind an address without recording a store. -/
def State.poke (addr : Word) (v : Byte) (s : State) : State :=
  { s with mem := Memory.write s.mem (cellOf addr) v }

/-- `MemWrite(addr, 1, v)` (R43): the cell, then the record `lastWrite` with the address before mirroring (R22). -/
def State.store (addr : Word) (v : Byte) (s : State) : State :=
  { s.poke addr v with lastWrite := some (addr, v) }

/-- `MemWrite(addr, 2, v)` (R45): low byte, then high byte. -/
def State.storeWord (addr : Word) (v : Word) (s : State) : State :=
  (s.store addr (lowByte v)).store (addr + 1#16) (highByte v)

/-! ### Flags of the state (R15, R90 to R92, R97 to R99) -/

/-- `getFlag(flag)`. -/
def State.flag (f : Flag) (s : State) : Bool :=
  flagOf f s.p

/-- `setFlag(flag, bit)`. -/
def State.setFlag (f : Flag) (bit : Bool) (s : State) : State :=
  s.setP (withFlag f bit s.p)

/-- `SetZN(v)`. -/
def State.setZN (v : Nat) (s : State) : State :=
  s.setP (withZN v s.p)

/-- `SetV(result, a, b)`. -/
def State.setV (result : Nat) (a b : Byte) (s : State) : State :=
  s.setP (withOverflow result a b s.p)

/-- The carry flag as the summand 0 or 1. -/
def State.carryIn (s : State) : Nat :=
  (s.flag .carry).toNat

/-! ### The stack (R16, R230) -/

/-- `StackAddr(s) = 0x0100 + (s mod 256)` (R16). -/
def stackAddr (sp : Byte) : Word :=
  Config.stackBase + zeroExtend sp

/-- `Push(v)` (R230). -/
def State.push (v : Byte) (s : State) : State :=
  (s.store (stackAddr s.sp) v).setSP (s.sp - 1#8)

/-- The byte `Pull()` returns: increment, then read (R230). -/
def State.pulled (s : State) : Byte :=
  s.load (stackAddr (s.sp + 1#8))

/-- The state `Pull()` leaves: `SP` incremented (R230). -/
def State.afterPull (s : State) : State :=
  s.setSP (s.sp + 1#8)

/-! ### The software trap and its return (R243, R244, R254, R255) -/

/-- Trap entry of BRK (R243, R254): B set in `P`, then the low byte of `PC + 2`, its high byte and `P` stored downward from
`SP`, `SP` lowered by 2 (C2), `PC` loaded from the IRQ/BRK vector. I is not written (D10). -/
def State.trapEntry (s : State) : State :=
  let ret := s.pc + 2#16
  let s1 := s.setFlag .breakCommand true
  let s2 := s1.store (stackAddr s.sp) (lowByte ret)
  let s3 := s2.store (stackAddr (s.sp - 1#8)) (highByte ret)
  let s4 := s3.store (stackAddr (s.sp - 2#8)) s1.p
  let s5 := s4.setSP (s.sp - 2#8)
  s5.setPC (s5.loadWord Config.breakVector)

/-- Trap return of RTI (R244, R255): `P` whole, then `PC`, from the three bytes above `SP`; `SP` raised by 3. -/
def State.trapReturn (s : State) : State :=
  let p := s.load (stackAddr (s.sp + 1#8))
  let lo := s.load (stackAddr (s.sp + 2#8))
  let hi := s.load (stackAddr (s.sp + 3#8))
  ((s.setP p).setSP (s.sp + 3#8)).setPC (wordOf hi lo)

/-! ### Fetch and PC advance (R73, R131, R133) -/

/-- The byte `k` places after `PC`, modulo 65536 (R73). -/
def State.byteAtPC (s : State) (k : Nat) : Byte :=
  s.load (s.pc + BitVec.ofNat 16 k)

/-- The fetch of `Step` (R131): the instruction at `PC`, or the opcode byte that is not in the map. -/
def State.fetch (s : State) : Except DecodeError Instr :=
  decode s.byteAtPC

/-- The exception for a decoding error (R250). -/
def raised : DecodeError → Fault
  | .unknownOpcode opcode => .unknownInstruction opcode

/-- `NextPC(mode, displacement)` (R133), with `pc` the address of the opcode byte. -/
def nextPC (f : Format) (displacement : Int) (pc : Word) : Word :=
  BitVec.ofInt 16 (pc.toNat + 1 + f.operandBytes + displacement)

/-! ### The beginning and the end of an `Execute` (R22, R132, R136, R137) -/

/-- `lastWrite <- none` at the start of every `Execute` (R22, R132). -/
def State.beginExecute (s : State) : State :=
  { s with lastWrite := none }

/-- The records written at the end of a successful `Execute` (R136, R137). -/
def State.record (i : Instr) (extra : Nat) (s : State) : State :=
  { s with lastExecuted := some ⟨i.opcode, i.operand⟩, lastExtraCycles := extra }

/-- The observer's note that an instruction has retired: `obs.resetPending` is cleared (R23, R272; log 4). -/
def State.noteRetired (s : State) : State :=
  { s with obs := { s.obs with resetPending := false } }

/-- `noteRetired` after an `Execute` that succeeded, nothing after one that did not. -/
def afterExecute : Host.Outcome State Fault Refusal → Host.Outcome State Fault Refusal
  | .next s => .next s.noteRetired
  | .fault r => .fault r
  | .refused r => .refused r

/-! ### Placing an instruction for the next fetch -/

/-- Puts the low three bytes of `w` at `PC`, `PC + 1` and `PC + 2`, without recording a store (log 15). -/
def State.placeAtPC (s : State) (w : Nat) : State :=
  ((s.poke s.pc (byteOf w 0)).poke (s.pc + 1#16) (byteOf w 1)).poke (s.pc + 2#16) (byteOf w 2)

end Sys2Proof.Machine
end

