-- ==== Sys2Proof/Machine/Operands.lean ====
section
/-! DEFINITION. The addressing-mode resolver (spec 41_addressing_modes.md): effective addresses, `Get` and `Set` of the twelve
modes, and the page-cross predicate. Operands are words; a one-byte mode uses the low byte (R126). -/

namespace Sys2Proof.Machine

/-! ### Effective addresses -/

/-- A pointer in zero page: low byte at `z`, high byte at `z + 1` without leaving page 0 (R121, R122). -/
def zeroPagePointer (z : Byte) (s : State) : Word :=
  wordOf (s.load (zeroExtend (z + 1#8))) (s.load (zeroExtend z))

/-- `EA(ZP, operand)` (R113). -/
def eaZeroPage (w : Word) : Word :=
  zeroExtend (lowByte w)

/-- `EA(ZPX, operand)` (R114): wraps in page 0. -/
def eaZeroPageX (w : Word) (s : State) : Word :=
  zeroExtend (lowByte w + s.x)

/-- `EA(ZPY, operand)` (R115): wraps in page 0. -/
def eaZeroPageY (w : Word) (s : State) : Word :=
  zeroExtend (lowByte w + s.y)

/-- `EA(ABS, operand)` (R117). -/
def eaAbsolute (w : Word) : Word :=
  w

/-- `EA(ABSX, operand)` (R118): modulo 65536 (R125, D3). -/
def eaAbsoluteX (w : Word) (s : State) : Word :=
  w + zeroExtend s.x

/-- `EA(ABSY, operand)` (R119): modulo 65536 (R125, D3). -/
def eaAbsoluteY (w : Word) (s : State) : Word :=
  w + zeroExtend s.y

/-- `EA(IND, operand)` (R120): the pointer's high byte never leaves the page of `operand`. -/
def eaIndirect (w : Word) (s : State) : Word :=
  wordOf (s.load (wordOf (highByte w) (lowByte w + 1#8))) (s.load w)

/-- `EA(INDX, operand)` (R121). -/
def eaIndexedIndirect (w : Word) (s : State) : Word :=
  zeroPagePointer (lowByte w + s.x) s

/-- `EA(INDY, operand)` (R122): modulo 65536 (R125, D3). -/
def eaIndirectIndexed (w : Word) (s : State) : Word :=
  zeroPagePointer (lowByte w) s + zeroExtend s.y

/-- `EA(mode, operand)` of the modes that move one byte of memory (R110). -/
def ea (m : MemMode) (w : Word) (s : State) : Word :=
  match m with
  | .zp => eaZeroPage w
  | .zpx => eaZeroPageX w s
  | .zpy => eaZeroPageY w s
  | .abs => eaAbsolute w
  | .absx => eaAbsoluteX w s
  | .absy => eaAbsoluteY w s
  | .indx => eaIndexedIndirect w s
  | .indy => eaIndirectIndexed w s

/-! ### Get and Set -/

/-- `Get(IMM, operand)` (R112). -/
def getImmediate (w : Word) : Byte :=
  lowByte w

/-- `Get(REL, operand)` (R116). -/
def getRelative (w : Word) : Int :=
  signedByte (lowByte w).toNat

/-- `Get(mode, operand)` of a memory mode (R110). -/
def getMemory (m : MemMode) (w : Word) (s : State) : Byte :=
  s.load (ea m w s)

/-- `Set(mode, operand, v)` of a memory mode (R110, R123). -/
def setMemory (m : MemMode) (w : Word) (v : Byte) (s : State) : State :=
  s.store (ea m w s) v

/-- What `Get` returns: a byte, the signed displacement of Relative, or the pointer of Indirect (R110). -/
inductive OperandValue where
  | byte (v : Byte)
  | displacement (d : Int)
  | pointer (w : Word)
  deriving DecidableEq, Repr

/-- `Get(mode, operand)`, the source's `loadByAddressingMode` (R53, R110). -/
def getByMode (m : Mode) (w : Word) (s : State) : OperandValue :=
  match m with
  | .acc => .byte s.a
  | .imm => .byte (getImmediate w)
  | .rel => .displacement (getRelative w)
  | .ind => .pointer (eaIndirect w s)
  | .mem mm => .byte (getMemory mm w s)

/-- `Set(mode, operand, v)`, the source's `storeByAddressingMode` (R53, R110); none for the read-only modes. -/
def setByMode (m : Mode) (w : Word) (v : Byte) (s : State) : Option State :=
  match m with
  | .acc => some (s.setA v)
  | .imm => none
  | .rel => none
  | .ind => none
  | .mem mm => some (setMemory mm w v s)

/-! ### The shapes in which instructions use an operand -/

/-- The 16-bit operand of a one-byte format (R73). -/
def byteOperand (d : Byte) : Word :=
  zeroExtend d

/-- An operation on the immediate byte. -/
def withImmediate (w : Word) (op : Byte → State → State) (s : State) : State :=
  op (getImmediate w) s

/-- An operation on a byte read from memory. -/
def withMemory (m : MemMode) (w : Word) (op : Byte → State → State) (s : State) : State :=
  op (getMemory m w s) s

/-- Read-modify-write of `A`: the operation gives the new value and the state with its flags updated (R111, R170). -/
def modifyAccumulator (op : Byte → State → Byte × State) (s : State) : State :=
  let r := op s.a s
  r.2.setA r.1

/-- Read-modify-write of memory: one read and one write of one effective address (R51, R110, R170; log 11). -/
def modifyMemory (m : MemMode) (w : Word) (op : Byte → State → Byte × State) (s : State) : State :=
  let addr := ea m w s
  let r := op (s.load addr) s
  r.2.store addr r.1

/-! ### Page crossing (R124) -/

/-- Two addresses are in different pages: their high bytes differ (R9). -/
def pagesDiffer (a b : Word) : Bool :=
  highByte a != highByte b

/-- `PageCross(mode, operand)` of a memory mode (R124): the un-indexed base against the effective address. -/
def pageCross (m : MemMode) (w : Word) (s : State) : Bool :=
  match m with
  | .absx => pagesDiffer w (eaAbsoluteX w s)
  | .absy => pagesDiffer w (eaAbsoluteY w s)
  | .indy => pagesDiffer (zeroPagePointer (lowByte w) s) (eaIndirectIndexed w s)
  | .zp | .zpx | .zpy | .abs | .indx => false

/-- The page-cross penalty of an instruction (R77, R137): 1 for an opcode of the page-cross-check set whose access crosses. -/
def pageCrossPenalty (i : Instr) (s : State) : Nat :=
  match i.format with
  | .mode (.mem m) =>
    if pageCrossCheckSet.contains i.opcode && pageCross m (i.operand.getD 0#16) s then 1 else 0
  | .mode .acc | .mode .imm | .mode .rel | .mode .ind | .implied => 0

end Sys2Proof.Machine
end

