-- ==== Sys2Proof/Machine/Contract.lean ====
section
/-! DEFINITION. The execution contract (R130, R132, R135): how an instruction's own effect stands between the clearing of
`lastWrite` and the records, and which instructions advance `PC` (R133, R140). -/

namespace Sys2Proof.Machine

/-- An `Execute` with a given effect on the state and a given `lastExtraCycles` (R132). -/
def executeWith (i : Instr) (extra : Nat) (effect : State → State) (s : State) : Host.Outcome State Fault Refusal :=
  .next ((effect s.beginExecute).record i extra)

/-- `PC <- NextPC(mode, 0)` (R133). -/
def advance (i : Instr) (s : State) : State :=
  s.setPC (nextPC i.format 0 s.pc)

/-- An instruction that does not set `PC` itself: its effect, then the advance; the page-cross penalty is that of the state
before it (R130, R137). -/
def runPlain (i : Instr) (effect : State → State) (s : State) : Host.Outcome State Fault Refusal :=
  executeWith i (pageCrossPenalty i s) (fun t => advance i (effect t)) s

/-- An instruction whose effect sets `PC` explicitly (R140); no extra cycles (R137). -/
def runJump (i : Instr) (effect : State → State) (s : State) : Host.Outcome State Fault Refusal :=
  executeWith i 0 effect s

/-- The target of a branch at `pc` (R210). -/
def branchTarget (w : Word) (pc : Word) : Word :=
  nextPC (.mode .rel) (getRelative w) pc

/-- The extra cycles of a taken branch (R210, R137): 1, or 2 if the target's page is not the opcode's own (D14). -/
def takenPenalty (w : Word) (pc : Word) : Nat :=
  if pagesDiffer (branchTarget w pc) pc then 2 else 1

/-- The common rule of the eight branches (R210): taken when the named flag has the named value. -/
def runBranch (i : Instr) (f : Flag) (value : Bool) (w : Word) (s : State) : Host.Outcome State Fault Refusal :=
  if s.flag f == value then executeWith i (takenPenalty w s.pc) (fun t => t.setPC (branchTarget w t.pc)) s
  else executeWith i 0 (fun t => t.setPC (nextPC (.mode .rel) 0 t.pc)) s

end Sys2Proof.Machine
end

