-- ==== Sys2Proof/Machine/Arithmetic.lean ====
section
/-! DEFINITION. ADC, SBC, AND, ORA, EOR, CMP, CPX, CPY, BIT (spec 43_arithmetic_logic_compare.md). -/

namespace Sys2Proof.Machine

/-! ### Effects -/

/-- ADC's effect (R151): the binary sum with carry, whatever D holds. -/
def adc (m : Byte) (s : State) : State :=
  let result := s.a.toNat + m.toNat + s.carryIn
  (((s.setFlag .carry (decide (result > 0xFF))).setZN result).setV result m s.a).setA (toByte result)

/-- SBC's effect (R152), as the source writes it: the two's complement of the operand is added with the carry, C is the
complement of the result's sign, and V compares the signs of the operand itself and of `A`. -/
def sbc (m : Byte) (s : State) : State :=
  let result := s.a.toNat + (twoComplement m).toNat + s.carryIn
  (((s.setFlag .carry (decide (0 ≤ signedByte result))).setZN result).setV result m s.a).setA (toByte result)

/-- Z and N from a result that is then written to `A` (R153 to R155). -/
def logicResult (result : Byte) (s : State) : State :=
  (s.setZN result.toNat).setA result

/-- AND's effect (R153). -/
def andA (m : Byte) (s : State) : State :=
  logicResult (s.a &&& m) s

/-- ORA's effect (R154). -/
def oraA (m : Byte) (s : State) : State :=
  logicResult (s.a ||| m) s

/-- EOR's effect (R155). -/
def eorA (m : Byte) (s : State) : State :=
  logicResult (s.a ^^^ m) s

/-- The common effect of the compares (R156): C from the unsigned comparison, Z and N from `0x100 + register - memory`. -/
def compareBytes (register m : Byte) (s : State) : State :=
  (s.setFlag .carry (decide (m.toNat ≤ register.toNat))).setZN (0x100 + register.toNat - m.toNat)

/-- CMP's effect (R156). -/
def cmpA (m : Byte) (s : State) : State :=
  compareBytes s.a m s

/-- CPX's effect (R157). -/
def cpxX (m : Byte) (s : State) : State :=
  compareBytes s.x m s

/-- CPY's effect (R158). -/
def cpyY (m : Byte) (s : State) : State :=
  compareBytes s.y m s

/-- BIT's effect (R159): Z from `A & memory`, V and N from bits 6 and 7 of memory. -/
def bitTest (m : Byte) (s : State) : State :=
  ((s.setFlag .zero (s.a &&& m == 0#8)).setFlag .overflow (bitValue 6 m)).setFlag .negative (bitValue 7 m)

/-! ### Meanings -/

/-- ADC IMM, opcode 69 (R151). -/
def execAdcImm (d : Byte) (s : State) : Host.Outcome State Fault Refusal :=
  runPlain (.adcImm d) (withImmediate (byteOperand d) adc) s

/-- ADC ZP, opcode 65 (R151). -/
def execAdcZp (d : Byte) (s : State) : Host.Outcome State Fault Refusal :=
  runPlain (.adcZp d) (withMemory .zp (byteOperand d) adc) s

/-- ADC ZPX, opcode 75 (R151). -/
def execAdcZpx (d : Byte) (s : State) : Host.Outcome State Fault Refusal :=
  runPlain (.adcZpx d) (withMemory .zpx (byteOperand d) adc) s

/-- ADC ABS, opcode 6D (R151). -/
def execAdcAbs (w : Word) (s : State) : Host.Outcome State Fault Refusal :=
  runPlain (.adcAbs w) (withMemory .abs w adc) s

/-- ADC ABSX, opcode 7D (R151). -/
def execAdcAbsx (w : Word) (s : State) : Host.Outcome State Fault Refusal :=
  runPlain (.adcAbsx w) (withMemory .absx w adc) s

/-- ADC ABSY, opcode 79 (R151). -/
def execAdcAbsy (w : Word) (s : State) : Host.Outcome State Fault Refusal :=
  runPlain (.adcAbsy w) (withMemory .absy w adc) s

/-- ADC INDX, opcode 61 (R151). -/
def execAdcIndx (d : Byte) (s : State) : Host.Outcome State Fault Refusal :=
  runPlain (.adcIndx d) (withMemory .indx (byteOperand d) adc) s

/-- ADC INDY, opcode 71 (R151). -/
def execAdcIndy (d : Byte) (s : State) : Host.Outcome State Fault Refusal :=
  runPlain (.adcIndy d) (withMemory .indy (byteOperand d) adc) s

/-- SBC IMM, opcode E9 (R152). -/
def execSbcImm (d : Byte) (s : State) : Host.Outcome State Fault Refusal :=
  runPlain (.sbcImm d) (withImmediate (byteOperand d) sbc) s

/-- SBC ZP, opcode E5 (R152). -/
def execSbcZp (d : Byte) (s : State) : Host.Outcome State Fault Refusal :=
  runPlain (.sbcZp d) (withMemory .zp (byteOperand d) sbc) s

/-- SBC ZPX, opcode F5 (R152). -/
def execSbcZpx (d : Byte) (s : State) : Host.Outcome State Fault Refusal :=
  runPlain (.sbcZpx d) (withMemory .zpx (byteOperand d) sbc) s

/-- SBC ABS, opcode ED (R152). -/
def execSbcAbs (w : Word) (s : State) : Host.Outcome State Fault Refusal :=
  runPlain (.sbcAbs w) (withMemory .abs w sbc) s

/-- SBC ABSX, opcode FD (R152). -/
def execSbcAbsx (w : Word) (s : State) : Host.Outcome State Fault Refusal :=
  runPlain (.sbcAbsx w) (withMemory .absx w sbc) s

/-- SBC ABSY, opcode F9 (R152). -/
def execSbcAbsy (w : Word) (s : State) : Host.Outcome State Fault Refusal :=
  runPlain (.sbcAbsy w) (withMemory .absy w sbc) s

/-- SBC INDX, opcode E1 (R152). -/
def execSbcIndx (d : Byte) (s : State) : Host.Outcome State Fault Refusal :=
  runPlain (.sbcIndx d) (withMemory .indx (byteOperand d) sbc) s

/-- SBC INDY, opcode F1 (R152). -/
def execSbcIndy (d : Byte) (s : State) : Host.Outcome State Fault Refusal :=
  runPlain (.sbcIndy d) (withMemory .indy (byteOperand d) sbc) s

/-- AND IMM, opcode 29 (R153). -/
def execAndImm (d : Byte) (s : State) : Host.Outcome State Fault Refusal :=
  runPlain (.andImm d) (withImmediate (byteOperand d) andA) s

/-- AND ZP, opcode 25 (R153). -/
def execAndZp (d : Byte) (s : State) : Host.Outcome State Fault Refusal :=
  runPlain (.andZp d) (withMemory .zp (byteOperand d) andA) s

/-- AND ZPX, opcode 35 (R153). -/
def execAndZpx (d : Byte) (s : State) : Host.Outcome State Fault Refusal :=
  runPlain (.andZpx d) (withMemory .zpx (byteOperand d) andA) s

/-- AND ABS, opcode 2D (R153). -/
def execAndAbs (w : Word) (s : State) : Host.Outcome State Fault Refusal :=
  runPlain (.andAbs w) (withMemory .abs w andA) s

/-- AND ABSX, opcode 3D (R153). -/
def execAndAbsx (w : Word) (s : State) : Host.Outcome State Fault Refusal :=
  runPlain (.andAbsx w) (withMemory .absx w andA) s

/-- AND ABSY, opcode 39 (R153). -/
def execAndAbsy (w : Word) (s : State) : Host.Outcome State Fault Refusal :=
  runPlain (.andAbsy w) (withMemory .absy w andA) s

/-- AND INDX, opcode 21 (R153). -/
def execAndIndx (d : Byte) (s : State) : Host.Outcome State Fault Refusal :=
  runPlain (.andIndx d) (withMemory .indx (byteOperand d) andA) s

/-- AND INDY, opcode 31 (R153). -/
def execAndIndy (d : Byte) (s : State) : Host.Outcome State Fault Refusal :=
  runPlain (.andIndy d) (withMemory .indy (byteOperand d) andA) s

/-- ORA IMM, opcode 09 (R154). -/
def execOraImm (d : Byte) (s : State) : Host.Outcome State Fault Refusal :=
  runPlain (.oraImm d) (withImmediate (byteOperand d) oraA) s

/-- ORA ZP, opcode 05 (R154). -/
def execOraZp (d : Byte) (s : State) : Host.Outcome State Fault Refusal :=
  runPlain (.oraZp d) (withMemory .zp (byteOperand d) oraA) s

/-- ORA ZPX, opcode 15 (R154). -/
def execOraZpx (d : Byte) (s : State) : Host.Outcome State Fault Refusal :=
  runPlain (.oraZpx d) (withMemory .zpx (byteOperand d) oraA) s

/-- ORA ABS, opcode 0D (R154). -/
def execOraAbs (w : Word) (s : State) : Host.Outcome State Fault Refusal :=
  runPlain (.oraAbs w) (withMemory .abs w oraA) s

/-- ORA ABSX, opcode 1D (R154). -/
def execOraAbsx (w : Word) (s : State) : Host.Outcome State Fault Refusal :=
  runPlain (.oraAbsx w) (withMemory .absx w oraA) s

/-- ORA ABSY, opcode 19 (R154). -/
def execOraAbsy (w : Word) (s : State) : Host.Outcome State Fault Refusal :=
  runPlain (.oraAbsy w) (withMemory .absy w oraA) s

/-- ORA INDX, opcode 01 (R154). -/
def execOraIndx (d : Byte) (s : State) : Host.Outcome State Fault Refusal :=
  runPlain (.oraIndx d) (withMemory .indx (byteOperand d) oraA) s

/-- ORA INDY, opcode 11 (R154). -/
def execOraIndy (d : Byte) (s : State) : Host.Outcome State Fault Refusal :=
  runPlain (.oraIndy d) (withMemory .indy (byteOperand d) oraA) s

/-- EOR IMM, opcode 49 (R155). -/
def execEorImm (d : Byte) (s : State) : Host.Outcome State Fault Refusal :=
  runPlain (.eorImm d) (withImmediate (byteOperand d) eorA) s

/-- EOR ZP, opcode 45 (R155). -/
def execEorZp (d : Byte) (s : State) : Host.Outcome State Fault Refusal :=
  runPlain (.eorZp d) (withMemory .zp (byteOperand d) eorA) s

/-- EOR ZPX, opcode 55 (R155). -/
def execEorZpx (d : Byte) (s : State) : Host.Outcome State Fault Refusal :=
  runPlain (.eorZpx d) (withMemory .zpx (byteOperand d) eorA) s

/-- EOR ABS, opcode 4D (R155). -/
def execEorAbs (w : Word) (s : State) : Host.Outcome State Fault Refusal :=
  runPlain (.eorAbs w) (withMemory .abs w eorA) s

/-- EOR ABSX, opcode 5D (R155). -/
def execEorAbsx (w : Word) (s : State) : Host.Outcome State Fault Refusal :=
  runPlain (.eorAbsx w) (withMemory .absx w eorA) s

/-- EOR ABSY, opcode 59 (R155). -/
def execEorAbsy (w : Word) (s : State) : Host.Outcome State Fault Refusal :=
  runPlain (.eorAbsy w) (withMemory .absy w eorA) s

/-- EOR INDX, opcode 41 (R155). -/
def execEorIndx (d : Byte) (s : State) : Host.Outcome State Fault Refusal :=
  runPlain (.eorIndx d) (withMemory .indx (byteOperand d) eorA) s

/-- EOR INDY, opcode 51 (R155). -/
def execEorIndy (d : Byte) (s : State) : Host.Outcome State Fault Refusal :=
  runPlain (.eorIndy d) (withMemory .indy (byteOperand d) eorA) s

/-- CMP IMM, opcode C9 (R156). -/
def execCmpImm (d : Byte) (s : State) : Host.Outcome State Fault Refusal :=
  runPlain (.cmpImm d) (withImmediate (byteOperand d) cmpA) s

/-- CMP ZP, opcode C5 (R156). -/
def execCmpZp (d : Byte) (s : State) : Host.Outcome State Fault Refusal :=
  runPlain (.cmpZp d) (withMemory .zp (byteOperand d) cmpA) s

/-- CMP ZPX, opcode D5 (R156). -/
def execCmpZpx (d : Byte) (s : State) : Host.Outcome State Fault Refusal :=
  runPlain (.cmpZpx d) (withMemory .zpx (byteOperand d) cmpA) s

/-- CMP ABS, opcode CD (R156). -/
def execCmpAbs (w : Word) (s : State) : Host.Outcome State Fault Refusal :=
  runPlain (.cmpAbs w) (withMemory .abs w cmpA) s

/-- CMP ABSX, opcode DD (R156). -/
def execCmpAbsx (w : Word) (s : State) : Host.Outcome State Fault Refusal :=
  runPlain (.cmpAbsx w) (withMemory .absx w cmpA) s

/-- CMP ABSY, opcode D9 (R156). -/
def execCmpAbsy (w : Word) (s : State) : Host.Outcome State Fault Refusal :=
  runPlain (.cmpAbsy w) (withMemory .absy w cmpA) s

/-- CMP INDX, opcode C1 (R156). -/
def execCmpIndx (d : Byte) (s : State) : Host.Outcome State Fault Refusal :=
  runPlain (.cmpIndx d) (withMemory .indx (byteOperand d) cmpA) s

/-- CMP INDY, opcode D1 (R156). -/
def execCmpIndy (d : Byte) (s : State) : Host.Outcome State Fault Refusal :=
  runPlain (.cmpIndy d) (withMemory .indy (byteOperand d) cmpA) s

/-- CPX IMM, opcode E0 (R157). -/
def execCpxImm (d : Byte) (s : State) : Host.Outcome State Fault Refusal :=
  runPlain (.cpxImm d) (withImmediate (byteOperand d) cpxX) s

/-- CPX ZP, opcode E4 (R157). -/
def execCpxZp (d : Byte) (s : State) : Host.Outcome State Fault Refusal :=
  runPlain (.cpxZp d) (withMemory .zp (byteOperand d) cpxX) s

/-- CPX ABS, opcode EC (R157). -/
def execCpxAbs (w : Word) (s : State) : Host.Outcome State Fault Refusal :=
  runPlain (.cpxAbs w) (withMemory .abs w cpxX) s

/-- CPY IMM, opcode C0 (R158). -/
def execCpyImm (d : Byte) (s : State) : Host.Outcome State Fault Refusal :=
  runPlain (.cpyImm d) (withImmediate (byteOperand d) cpyY) s

/-- CPY ZP, opcode C4 (R158). -/
def execCpyZp (d : Byte) (s : State) : Host.Outcome State Fault Refusal :=
  runPlain (.cpyZp d) (withMemory .zp (byteOperand d) cpyY) s

/-- CPY ABS, opcode CC (R158). -/
def execCpyAbs (w : Word) (s : State) : Host.Outcome State Fault Refusal :=
  runPlain (.cpyAbs w) (withMemory .abs w cpyY) s

/-- BIT ZP, opcode 24 (R159). -/
def execBitZp (d : Byte) (s : State) : Host.Outcome State Fault Refusal :=
  runPlain (.bitZp d) (withMemory .zp (byteOperand d) bitTest) s

/-- BIT ABS, opcode 2C (R159). -/
def execBitAbs (w : Word) (s : State) : Host.Outcome State Fault Refusal :=
  runPlain (.bitAbs w) (withMemory .abs w bitTest) s

end Sys2Proof.Machine
end

