-- ==== Sys2Proof/Machine/Control.lean ====
section
/-! DEFINITION. BCC, BCS, BEQ, BNE, BMI, BPL, BVC, BVS, JMP, JSR, RTS (spec 46_branch_jump_subroutine.md). -/

namespace Sys2Proof.Machine

/-! ### Effects -/

/-- JSR's effect (R220): the address of its own last byte stored below `SP`, low byte first, each byte address in page 1. -/
def callSubroutine (target : Word) (s : State) : State :=
  let ret := s.pc + 2#16
  let s1 := s.store (stackAddr (s.sp - 1#8)) (lowByte ret)
  let s2 := s1.store (stackAddr s.sp) (highByte ret)
  (s2.setSP (s.sp - 2#8)).setPC target

/-- RTS's effect (R221). -/
def returnFromSubroutine (s : State) : State :=
  let lo := s.load (stackAddr (s.sp + 1#8))
  let hi := s.load (stackAddr (s.sp + 2#8))
  (s.setSP (s.sp + 2#8)).setPC (wordOf hi lo + 1#16)

/-! ### Meanings -/

/-- BCC REL, opcode 90 (R211). -/
def execBcc (d : Byte) (s : State) : Host.Outcome State Fault Refusal :=
  runBranch (.bcc d) .carry false (byteOperand d) s

/-- BCS REL, opcode B0 (R212). -/
def execBcs (d : Byte) (s : State) : Host.Outcome State Fault Refusal :=
  runBranch (.bcs d) .carry true (byteOperand d) s

/-- BEQ REL, opcode F0 (R213). -/
def execBeq (d : Byte) (s : State) : Host.Outcome State Fault Refusal :=
  runBranch (.beq d) .zero true (byteOperand d) s

/-- BNE REL, opcode D0 (R214). -/
def execBne (d : Byte) (s : State) : Host.Outcome State Fault Refusal :=
  runBranch (.bne d) .zero false (byteOperand d) s

/-- BMI REL, opcode 30 (R215). -/
def execBmi (d : Byte) (s : State) : Host.Outcome State Fault Refusal :=
  runBranch (.bmi d) .negative true (byteOperand d) s

/-- BPL REL, opcode 10 (R216). -/
def execBpl (d : Byte) (s : State) : Host.Outcome State Fault Refusal :=
  runBranch (.bpl d) .negative false (byteOperand d) s

/-- BVC REL, opcode 50 (R217). -/
def execBvc (d : Byte) (s : State) : Host.Outcome State Fault Refusal :=
  runBranch (.bvc d) .overflow false (byteOperand d) s

/-- BVS REL, opcode 70 (R218). -/
def execBvs (d : Byte) (s : State) : Host.Outcome State Fault Refusal :=
  runBranch (.bvs d) .overflow true (byteOperand d) s

/-- JMP ABS, opcode 4C (R219). -/
def execJmpAbs (w : Word) (s : State) : Host.Outcome State Fault Refusal :=
  runJump (.jmpAbs w) (State.setPC (eaAbsolute w)) s

/-- JMP IND, opcode 6C (R219). -/
def execJmpInd (w : Word) (s : State) : Host.Outcome State Fault Refusal :=
  runJump (.jmpInd w) (fun t => t.setPC (eaIndirect w t)) s

/-- JSR ABS, opcode 20 (R220). -/
def execJsr (w : Word) (s : State) : Host.Outcome State Fault Refusal :=
  runJump (.jsr w) (callSubroutine (eaAbsolute w)) s

/-- RTS IMP, opcode 60 (R221). -/
def execRts (s : State) : Host.Outcome State Fault Refusal :=
  runJump .rts returnFromSubroutine s

end Sys2Proof.Machine
end

