-- ==== Sys2Proof/Machine/Shift.lean ====
section
/-! DEFINITION. ASL, LSR, ROL, ROR, INC, DEC, INX, INY, DEX, DEY (spec 44_shift_rotate_incdec.md). -/

namespace Sys2Proof.Machine

/-! ### Effects -/

/-- The common end of the shifts and rotates: C takes the bit shifted out, Z and N come from the new value (R170). -/
def shifted (new : Byte) (out : Bool) (s : State) : Byte × State :=
  (new, (s.setFlag .carry out).setZN new.toNat)

/-- ASL's value and flags (R171). -/
def asl (old : Byte) (s : State) : Byte × State :=
  shifted (old <<< 1) (bitValue 7 old) s

/-- LSR's value and flags (R172). -/
def lsr (old : Byte) (s : State) : Byte × State :=
  shifted (old >>> 1) (bitValue 0 old) s

/-- ROL's value and flags (R173): the previous carry enters bit 0. -/
def rol (old : Byte) (s : State) : Byte × State :=
  shifted ((old <<< 1) ||| (if s.flag .carry then 0x01#8 else 0#8)) (bitValue 7 old) s

/-- ROR's value and flags (R174): the previous carry enters bit 7. -/
def ror (old : Byte) (s : State) : Byte × State :=
  shifted ((old >>> 1) ||| (if s.flag .carry then 0x80#8 else 0#8)) (bitValue 0 old) s

/-- INC's value and flags (R175). -/
def inc (old : Byte) (s : State) : Byte × State :=
  (old + 1#8, s.setZN (old + 1#8).toNat)

/-- DEC's value and flags (R176). -/
def dec (old : Byte) (s : State) : Byte × State :=
  (old - 1#8, s.setZN (old - 1#8).toNat)

/-- Z and N from a new value of `X`, then `X` (R177, R179). -/
def countX (new : Byte) (s : State) : State :=
  (s.setZN new.toNat).setX new

/-- Z and N from a new value of `Y`, then `Y` (R178, R180). -/
def countY (new : Byte) (s : State) : State :=
  (s.setZN new.toNat).setY new

/-! ### Meanings -/

/-- ASL ACC, opcode 0A (R171). -/
def execAslAcc (s : State) : Host.Outcome State Fault Refusal :=
  runPlain .aslAcc (modifyAccumulator asl) s

/-- ASL ZP, opcode 06 (R171). -/
def execAslZp (d : Byte) (s : State) : Host.Outcome State Fault Refusal :=
  runPlain (.aslZp d) (modifyMemory .zp (byteOperand d) asl) s

/-- ASL ZPX, opcode 16 (R171). -/
def execAslZpx (d : Byte) (s : State) : Host.Outcome State Fault Refusal :=
  runPlain (.aslZpx d) (modifyMemory .zpx (byteOperand d) asl) s

/-- ASL ABS, opcode 0E (R171). -/
def execAslAbs (w : Word) (s : State) : Host.Outcome State Fault Refusal :=
  runPlain (.aslAbs w) (modifyMemory .abs w asl) s

/-- ASL ABSX, opcode 1E (R171). -/
def execAslAbsx (w : Word) (s : State) : Host.Outcome State Fault Refusal :=
  runPlain (.aslAbsx w) (modifyMemory .absx w asl) s

/-- LSR ACC, opcode 4A (R172). -/
def execLsrAcc (s : State) : Host.Outcome State Fault Refusal :=
  runPlain .lsrAcc (modifyAccumulator lsr) s

/-- LSR ZP, opcode 46 (R172). -/
def execLsrZp (d : Byte) (s : State) : Host.Outcome State Fault Refusal :=
  runPlain (.lsrZp d) (modifyMemory .zp (byteOperand d) lsr) s

/-- LSR ZPX, opcode 56 (R172). -/
def execLsrZpx (d : Byte) (s : State) : Host.Outcome State Fault Refusal :=
  runPlain (.lsrZpx d) (modifyMemory .zpx (byteOperand d) lsr) s

/-- LSR ABS, opcode 4E (R172). -/
def execLsrAbs (w : Word) (s : State) : Host.Outcome State Fault Refusal :=
  runPlain (.lsrAbs w) (modifyMemory .abs w lsr) s

/-- LSR ABSX, opcode 5E (R172). -/
def execLsrAbsx (w : Word) (s : State) : Host.Outcome State Fault Refusal :=
  runPlain (.lsrAbsx w) (modifyMemory .absx w lsr) s

/-- ROL ACC, opcode 2A (R173). -/
def execRolAcc (s : State) : Host.Outcome State Fault Refusal :=
  runPlain .rolAcc (modifyAccumulator rol) s

/-- ROL ZP, opcode 26 (R173). -/
def execRolZp (d : Byte) (s : State) : Host.Outcome State Fault Refusal :=
  runPlain (.rolZp d) (modifyMemory .zp (byteOperand d) rol) s

/-- ROL ZPX, opcode 36 (R173). -/
def execRolZpx (d : Byte) (s : State) : Host.Outcome State Fault Refusal :=
  runPlain (.rolZpx d) (modifyMemory .zpx (byteOperand d) rol) s

/-- ROL ABS, opcode 2E (R173). -/
def execRolAbs (w : Word) (s : State) : Host.Outcome State Fault Refusal :=
  runPlain (.rolAbs w) (modifyMemory .abs w rol) s

/-- ROL ABSX, opcode 3E (R173). -/
def execRolAbsx (w : Word) (s : State) : Host.Outcome State Fault Refusal :=
  runPlain (.rolAbsx w) (modifyMemory .absx w rol) s

/-- ROR ACC, opcode 6A (R174). -/
def execRorAcc (s : State) : Host.Outcome State Fault Refusal :=
  runPlain .rorAcc (modifyAccumulator ror) s

/-- ROR ZP, opcode 66 (R174). -/
def execRorZp (d : Byte) (s : State) : Host.Outcome State Fault Refusal :=
  runPlain (.rorZp d) (modifyMemory .zp (byteOperand d) ror) s

/-- ROR ZPX, opcode 76 (R174). -/
def execRorZpx (d : Byte) (s : State) : Host.Outcome State Fault Refusal :=
  runPlain (.rorZpx d) (modifyMemory .zpx (byteOperand d) ror) s

/-- ROR ABS, opcode 6E (R174). -/
def execRorAbs (w : Word) (s : State) : Host.Outcome State Fault Refusal :=
  runPlain (.rorAbs w) (modifyMemory .abs w ror) s

/-- ROR ABSX, opcode 7E (R174). -/
def execRorAbsx (w : Word) (s : State) : Host.Outcome State Fault Refusal :=
  runPlain (.rorAbsx w) (modifyMemory .absx w ror) s

/-- INC ZP, opcode E6 (R175). -/
def execIncZp (d : Byte) (s : State) : Host.Outcome State Fault Refusal :=
  runPlain (.incZp d) (modifyMemory .zp (byteOperand d) inc) s

/-- INC ZPX, opcode F6 (R175). -/
def execIncZpx (d : Byte) (s : State) : Host.Outcome State Fault Refusal :=
  runPlain (.incZpx d) (modifyMemory .zpx (byteOperand d) inc) s

/-- INC ABS, opcode EE (R175). -/
def execIncAbs (w : Word) (s : State) : Host.Outcome State Fault Refusal :=
  runPlain (.incAbs w) (modifyMemory .abs w inc) s

/-- INC ABSX, opcode FE (R175). -/
def execIncAbsx (w : Word) (s : State) : Host.Outcome State Fault Refusal :=
  runPlain (.incAbsx w) (modifyMemory .absx w inc) s

/-- DEC ZP, opcode C6 (R176). -/
def execDecZp (d : Byte) (s : State) : Host.Outcome State Fault Refusal :=
  runPlain (.decZp d) (modifyMemory .zp (byteOperand d) dec) s

/-- DEC ZPX, opcode D6 (R176). -/
def execDecZpx (d : Byte) (s : State) : Host.Outcome State Fault Refusal :=
  runPlain (.decZpx d) (modifyMemory .zpx (byteOperand d) dec) s

/-- DEC ABS, opcode CE (R176). -/
def execDecAbs (w : Word) (s : State) : Host.Outcome State Fault Refusal :=
  runPlain (.decAbs w) (modifyMemory .abs w dec) s

/-- DEC ABSX, opcode DE (R176). -/
def execDecAbsx (w : Word) (s : State) : Host.Outcome State Fault Refusal :=
  runPlain (.decAbsx w) (modifyMemory .absx w dec) s

/-- INX IMP, opcode E8 (R177). -/
def execInx (s : State) : Host.Outcome State Fault Refusal :=
  runPlain .inx (fun t => countX (t.x + 1#8) t) s

/-- INY IMP, opcode C8 (R178). -/
def execIny (s : State) : Host.Outcome State Fault Refusal :=
  runPlain .iny (fun t => countY (t.y + 1#8) t) s

/-- DEX IMP, opcode CA (R179). -/
def execDex (s : State) : Host.Outcome State Fault Refusal :=
  runPlain .dex (fun t => countX (t.x - 1#8) t) s

/-- DEY IMP, opcode 88 (R180). -/
def execDey (s : State) : Host.Outcome State Fault Refusal :=
  runPlain .dey (fun t => countY (t.y - 1#8) t) s

end Sys2Proof.Machine
end

