-- ==== Sys2Proof/Machine/System.lean ====
section
/-! DEFINITION. PHA, PHP, PLA, PLP, the seven flag instructions, NOP, BRK, RTI (spec 47_stack_flags_system.md). -/

namespace Sys2Proof.Machine

/-! ### Effects -/

/-- PLA's effect (R233): Z and N from the pulled byte. -/
def pullA (s : State) : State :=
  ((s.afterPull).setZN s.pulled.toNat).setA s.pulled

/-- PLP's effect (R234): all eight bits of `P` from the pulled byte. -/
def pullP (s : State) : State :=
  (s.afterPull).setP s.pulled

/-! ### Meanings -/

/-- PHA IMP, opcode 48 (R231). -/
def execPha (s : State) : Host.Outcome State Fault Refusal :=
  runPlain .pha (fun t => t.push t.a) s

/-- PHP IMP, opcode 08 (R232). -/
def execPhp (s : State) : Host.Outcome State Fault Refusal :=
  runPlain .php (fun t => t.push t.p) s

/-- PLA IMP, opcode 68 (R233). -/
def execPla (s : State) : Host.Outcome State Fault Refusal :=
  runPlain .pla pullA s

/-- PLP IMP, opcode 28 (R234). -/
def execPlp (s : State) : Host.Outcome State Fault Refusal :=
  runPlain .plp pullP s

/-- CLC IMP, opcode 18 (R235). -/
def execClc (s : State) : Host.Outcome State Fault Refusal :=
  runPlain .clc (State.setFlag .carry false) s

/-- SEC IMP, opcode 38 (R236). -/
def execSec (s : State) : Host.Outcome State Fault Refusal :=
  runPlain .sec (State.setFlag .carry true) s

/-- CLI IMP, opcode 58 (R237). -/
def execCli (s : State) : Host.Outcome State Fault Refusal :=
  runPlain .cli (State.setFlag .interruptDisable false) s

/-- SEI IMP, opcode 78 (R238). -/
def execSei (s : State) : Host.Outcome State Fault Refusal :=
  runPlain .sei (State.setFlag .interruptDisable true) s

/-- CLD IMP, opcode D8 (R239). -/
def execCld (s : State) : Host.Outcome State Fault Refusal :=
  runPlain .cld (State.setFlag .decimalMode false) s

/-- SED IMP, opcode F8 (R240). -/
def execSed (s : State) : Host.Outcome State Fault Refusal :=
  runPlain .sed (State.setFlag .decimalMode true) s

/-- CLV IMP, opcode B8 (R241). -/
def execClv (s : State) : Host.Outcome State Fault Refusal :=
  runPlain .clv (State.setFlag .overflow false) s

/-- NOP IMP, opcode EA (R242). -/
def execNop (s : State) : Host.Outcome State Fault Refusal :=
  runPlain .nop (fun t => t) s

/-- BRK IMP, opcode 00 (R243). -/
def execBrk (s : State) : Host.Outcome State Fault Refusal :=
  runJump .brk State.trapEntry s

/-- RTI IMP, opcode 40 (R244). -/
def execRti (s : State) : Host.Outcome State Fault Refusal :=
  runJump .rti State.trapReturn s

end Sys2Proof.Machine
end

