-- ==== Sys2Proof/Machine/Transfer.lean ====
section
/-! DEFINITION. LDA, LDX, LDY, STA, STX, STY, TAX, TAY, TXA, TYA, TSX, TXS (spec 45_load_store_transfer.md). -/

namespace Sys2Proof.Machine

/-! ### Effects -/

/-- Z and N from a value, then `A` (R191, R199, R200). -/
def toA (v : Byte) (s : State) : State :=
  (s.setZN v.toNat).setA v

/-- Z and N from a value, then `X` (R192, R197, R201). -/
def toX (v : Byte) (s : State) : State :=
  (s.setZN v.toNat).setX v

/-- Z and N from a value, then `Y` (R193, R198). -/
def toY (v : Byte) (s : State) : State :=
  (s.setZN v.toNat).setY v

/-! ### Meanings -/

/-- LDA IMM, opcode A9 (R191). -/
def execLdaImm (d : Byte) (s : State) : Host.Outcome State Fault Refusal :=
  runPlain (.ldaImm d) (withImmediate (byteOperand d) toA) s

/-- LDA ZP, opcode A5 (R191). -/
def execLdaZp (d : Byte) (s : State) : Host.Outcome State Fault Refusal :=
  runPlain (.ldaZp d) (withMemory .zp (byteOperand d) toA) s

/-- LDA ZPX, opcode B5 (R191). -/
def execLdaZpx (d : Byte) (s : State) : Host.Outcome State Fault Refusal :=
  runPlain (.ldaZpx d) (withMemory .zpx (byteOperand d) toA) s

/-- LDA ABS, opcode AD (R191). -/
def execLdaAbs (w : Word) (s : State) : Host.Outcome State Fault Refusal :=
  runPlain (.ldaAbs w) (withMemory .abs w toA) s

/-- LDA ABSX, opcode BD (R191). -/
def execLdaAbsx (w : Word) (s : State) : Host.Outcome State Fault Refusal :=
  runPlain (.ldaAbsx w) (withMemory .absx w toA) s

/-- LDA ABSY, opcode B9 (R191). -/
def execLdaAbsy (w : Word) (s : State) : Host.Outcome State Fault Refusal :=
  runPlain (.ldaAbsy w) (withMemory .absy w toA) s

/-- LDA INDX, opcode A1 (R191). -/
def execLdaIndx (d : Byte) (s : State) : Host.Outcome State Fault Refusal :=
  runPlain (.ldaIndx d) (withMemory .indx (byteOperand d) toA) s

/-- LDA INDY, opcode B1 (R191). -/
def execLdaIndy (d : Byte) (s : State) : Host.Outcome State Fault Refusal :=
  runPlain (.ldaIndy d) (withMemory .indy (byteOperand d) toA) s

/-- LDX IMM, opcode A2 (R192). -/
def execLdxImm (d : Byte) (s : State) : Host.Outcome State Fault Refusal :=
  runPlain (.ldxImm d) (withImmediate (byteOperand d) toX) s

/-- LDX ZP, opcode A6 (R192). -/
def execLdxZp (d : Byte) (s : State) : Host.Outcome State Fault Refusal :=
  runPlain (.ldxZp d) (withMemory .zp (byteOperand d) toX) s

/-- LDX ZPY, opcode B6 (R192). -/
def execLdxZpy (d : Byte) (s : State) : Host.Outcome State Fault Refusal :=
  runPlain (.ldxZpy d) (withMemory .zpy (byteOperand d) toX) s

/-- LDX ABS, opcode AE (R192). -/
def execLdxAbs (w : Word) (s : State) : Host.Outcome State Fault Refusal :=
  runPlain (.ldxAbs w) (withMemory .abs w toX) s

/-- LDX ABSY, opcode BE (R192). -/
def execLdxAbsy (w : Word) (s : State) : Host.Outcome State Fault Refusal :=
  runPlain (.ldxAbsy w) (withMemory .absy w toX) s

/-- LDY IMM, opcode A0 (R193). -/
def execLdyImm (d : Byte) (s : State) : Host.Outcome State Fault Refusal :=
  runPlain (.ldyImm d) (withImmediate (byteOperand d) toY) s

/-- LDY ZP, opcode A4 (R193). -/
def execLdyZp (d : Byte) (s : State) : Host.Outcome State Fault Refusal :=
  runPlain (.ldyZp d) (withMemory .zp (byteOperand d) toY) s

/-- LDY ZPX, opcode B4 (R193). -/
def execLdyZpx (d : Byte) (s : State) : Host.Outcome State Fault Refusal :=
  runPlain (.ldyZpx d) (withMemory .zpx (byteOperand d) toY) s

/-- LDY ABS, opcode AC (R193). -/
def execLdyAbs (w : Word) (s : State) : Host.Outcome State Fault Refusal :=
  runPlain (.ldyAbs w) (withMemory .abs w toY) s

/-- LDY ABSX, opcode BC (R193). -/
def execLdyAbsx (w : Word) (s : State) : Host.Outcome State Fault Refusal :=
  runPlain (.ldyAbsx w) (withMemory .absx w toY) s

/-- STA ZP, opcode 85 (R194). -/
def execStaZp (d : Byte) (s : State) : Host.Outcome State Fault Refusal :=
  runPlain (.staZp d) (fun t => setMemory .zp (byteOperand d) t.a t) s

/-- STA ZPX, opcode 95 (R194). -/
def execStaZpx (d : Byte) (s : State) : Host.Outcome State Fault Refusal :=
  runPlain (.staZpx d) (fun t => setMemory .zpx (byteOperand d) t.a t) s

/-- STA ABS, opcode 8D (R194). -/
def execStaAbs (w : Word) (s : State) : Host.Outcome State Fault Refusal :=
  runPlain (.staAbs w) (fun t => setMemory .abs w t.a t) s

/-- STA ABSX, opcode 9D (R194). -/
def execStaAbsx (w : Word) (s : State) : Host.Outcome State Fault Refusal :=
  runPlain (.staAbsx w) (fun t => setMemory .absx w t.a t) s

/-- STA ABSY, opcode 99 (R194). -/
def execStaAbsy (w : Word) (s : State) : Host.Outcome State Fault Refusal :=
  runPlain (.staAbsy w) (fun t => setMemory .absy w t.a t) s

/-- STA INDX, opcode 81 (R194). -/
def execStaIndx (d : Byte) (s : State) : Host.Outcome State Fault Refusal :=
  runPlain (.staIndx d) (fun t => setMemory .indx (byteOperand d) t.a t) s

/-- STA INDY, opcode 91 (R194). -/
def execStaIndy (d : Byte) (s : State) : Host.Outcome State Fault Refusal :=
  runPlain (.staIndy d) (fun t => setMemory .indy (byteOperand d) t.a t) s

/-- STX ZP, opcode 86 (R195). -/
def execStxZp (d : Byte) (s : State) : Host.Outcome State Fault Refusal :=
  runPlain (.stxZp d) (fun t => setMemory .zp (byteOperand d) t.x t) s

/-- STX ZPY, opcode 96 (R195). -/
def execStxZpy (d : Byte) (s : State) : Host.Outcome State Fault Refusal :=
  runPlain (.stxZpy d) (fun t => setMemory .zpy (byteOperand d) t.x t) s

/-- STX ABS, opcode 8E (R195). -/
def execStxAbs (w : Word) (s : State) : Host.Outcome State Fault Refusal :=
  runPlain (.stxAbs w) (fun t => setMemory .abs w t.x t) s

/-- STY ZP, opcode 84 (R196). -/
def execStyZp (d : Byte) (s : State) : Host.Outcome State Fault Refusal :=
  runPlain (.styZp d) (fun t => setMemory .zp (byteOperand d) t.y t) s

/-- STY ZPX, opcode 94 (R196). -/
def execStyZpx (d : Byte) (s : State) : Host.Outcome State Fault Refusal :=
  runPlain (.styZpx d) (fun t => setMemory .zpx (byteOperand d) t.y t) s

/-- STY ABS, opcode 8C (R196). -/
def execStyAbs (w : Word) (s : State) : Host.Outcome State Fault Refusal :=
  runPlain (.styAbs w) (fun t => setMemory .abs w t.y t) s

/-- TAX IMP, opcode AA (R197). -/
def execTax (s : State) : Host.Outcome State Fault Refusal :=
  runPlain .tax (fun t => toX t.a t) s

/-- TAY IMP, opcode A8 (R198). -/
def execTay (s : State) : Host.Outcome State Fault Refusal :=
  runPlain .tay (fun t => toY t.a t) s

/-- TXA IMP, opcode 8A (R199). -/
def execTxa (s : State) : Host.Outcome State Fault Refusal :=
  runPlain .txa (fun t => toA t.x t) s

/-- TYA IMP, opcode 98 (R200). -/
def execTya (s : State) : Host.Outcome State Fault Refusal :=
  runPlain .tya (fun t => toA t.y t) s

/-- TSX IMP, opcode BA (R201). -/
def execTsx (s : State) : Host.Outcome State Fault Refusal :=
  runPlain .tsx (fun t => toX t.sp t) s

/-- TXS IMP, opcode 9A (R202). -/
def execTxs (s : State) : Host.Outcome State Fault Refusal :=
  runPlain .txs (fun t => t.setSP t.x) s

end Sys2Proof.Machine
end

