-- ==== Sys2Proof/Machine/Step.lean ====
section
/-! DEFINITION. `Step` (R131): the instruction fetched at `PC` is executed, or the machine faults with the opcode byte. -/

namespace Sys2Proof.Machine

/-- One `Step` (R131). After an instruction has retired the observer's `resetPending` is clear (R23; log 4). -/
def step (s : State) : Host.Outcome State Fault Refusal :=
  match s.fetch with
  | .ok i => afterExecute (exec i s)
  | .error e => .fault (raised e)

/-- The state with the low `nbits` bits of `w` placed where `step` fetches (`PC`, `PC + 1`, `PC + 2`), the bits above them 0. -/
def State.withFetchWord (s : State) (nbits w : Nat) : State :=
  s.placeAtPC (w % 2 ^ nbits)

end Sys2Proof.Machine
end

