-- ==== Sys2Proof/Machine/Observer.lean ====
section
/-! DEFINITION. The breakpoint observer (spec 60_exceptions.md, section 5): predicates, the drive loop, `run()`, the pause event,
registration and removal. -/

namespace Sys2Proof.Machine

/-! ### Predicates (R268 to R272) -/

/-- `Holds(predicate, v)` (R270): range bounds are inclusive. -/
def holds (pred : Predicate) (v : Byte) : Bool :=
  match pred with
  | .equalTo w => v == w
  | .range lo hi => lo.toNat ≤ v.toNat && v.toNat ≤ hi.toNat

/-- A write breakpoint against the record `lastWrite` (R270): the exact address presented, and the value test. -/
def writeMatches (addr : Word) (pred : Predicate) (last : Option (Word × Byte)) : Bool :=
  match last with
  | none => false
  | some (a, v) => a == addr && holds pred v

/-- `Fires(bp)`, evaluated after an instruction has retired (R269 to R272). -/
def fires (bp : Breakpoint) (s : State) : Bool :=
  match bp with
  | .address pc => s.pc == pc
  | .memory addr .write pred => writeMatches addr pred s.lastWrite
  | .memory _ .read _ => Config.readTap
  | .instructionCount n => s.obs.retired == n
  | .resetVector => false

/-- Some breakpoint fires; they are taken in registration order and the first true one pauses the loop (R268). -/
def anyFires (s : State) : Bool :=
  s.obs.breakpoints.any (fun bp => fires bp s)

/-- The test at the top of the drive loop (R268, R272). -/
def resetBreak (s : State) : Bool :=
  s.obs.resetPending && s.obs.breakpoints.contains .resetVector

/-! ### The pause event (R273) -/

/-- The register snapshot of the pause event. -/
structure Registers where
  a  : Byte
  x  : Byte
  y  : Byte
  sp : Byte
  p  : Byte
  pc : Word
  deriving DecidableEq, Repr

/-- `PauseEvent` (R273). -/
structure PauseEvent where
  pc           : Word
  paused       : Bool
  lastExecuted : Option Executed
  registers    : Registers
  deriving DecidableEq, Repr

/-- The event emitted at a pause in a state (R273). -/
def pauseEvent (s : State) : PauseEvent :=
  { pc := s.pc, paused := true, lastExecuted := s.lastExecuted,
    registers := { a := s.a, x := s.x, y := s.y, sp := s.sp, p := s.p, pc := s.pc } }

/-! ### The drive loop (R267, R268, R277) -/

/-- What the drive loop answers (R278). -/
inductive RunResult where
  /-- A pause: the event emitted and the state, a legitimate end state. -/
  | paused (e : PauseEvent) (s : State)
  /-- The exception, returned to the caller of `run()`; never an end state. -/
  | faulted (r : Fault) (s : State)
  /-- A step without meaning; no step of this machine is one. -/
  | refused (r : Refusal) (s : State)
  /-- The loop is still running: the bound on its iterations is used up, or `run()` found it running. -/
  | running (s : State)
  deriving DecidableEq, Repr

/-- `obs.state <- r`. -/
def State.setRun (r : RunState) (s : State) : State :=
  { s with obs := { s.obs with run := r } }

/-- `Pause()` (R268). -/
def pause (s : State) : RunResult :=
  .paused (pauseEvent s) (s.setRun .paused)

/-- `obs.retired <- obs.retired + 1; obs.resetPending <- false` (R268). -/
def State.countRetired (s : State) : State :=
  { s with obs := { s.obs with retired := s.obs.retired + 1, resetPending := false } }

/-- One iteration of the drive loop (R268, R277). -/
def driveIteration (s : State) : RunResult :=
  if resetBreak s then pause s.noteRetired
  else
    match step s with
    | .fault r => .faulted r (s.setRun .paused)
    | .refused r => .refused r (s.setRun .paused)
    | .next t => if anyFires t.countRetired then pause t.countRetired else .running t.countRetired

/-- At most `n` iterations of the drive loop (R268; log 6: the loop itself need not end). -/
def driveLoop : Nat → State → RunResult
  | 0, s => .running s
  | n + 1, s =>
    match driveIteration s with
    | .running t => driveLoop n t
    | .paused e t => .paused e t
    | .faulted r t => .faulted r t
    | .refused r t => .refused r t

/-- The loop is being driven: state Running and started (R267). -/
def driving (s : State) : Bool :=
  s.obs.run == .running && s.obs.started

/-- The observer's state when `run()` starts or resumes the loop (R267). -/
def State.startRun (s : State) : State :=
  { s with obs := { s.obs with run := .running, started := true, retired := 0 } }

/-- `run()` (R267), its drive loop bounded by `n` iterations (log 6). -/
def run (n : Nat) (s : State) : RunResult :=
  if driving s then .running s else driveLoop n s.startRun

/-! ### Registration and removal (R275, R276) -/

/-- Appends a breakpoint at the end of the list (R275). -/
def State.register (bp : Breakpoint) (s : State) : State :=
  { s with obs := { s.obs with breakpoints := s.obs.breakpoints ++ [bp] } }

/-- Removes the breakpoint at a position of the list and keeps the order of the rest (R275; log 8). -/
def State.unregister (index : Nat) (s : State) : State :=
  { s with obs := { s.obs with breakpoints := s.obs.breakpoints.eraseIdx index } }

/-- The predicate of a request: equality, or the range of its bounds (R275). -/
def requestPredicate (r : MemoryRequest) : Predicate :=
  match r.equalsTo with
  | some v => .equalTo (toByte v)
  | none => .range (toByte (r.greaterThanOrEquals.getD 0)) (toByte (r.lessThanOrEquals.getD 0))

/-- The breakpoint of a well-formed `addMemoryBreakpoint` request, its arguments masked (R275). -/
def memoryBreakpoint (r : MemoryRequest) : Breakpoint :=
  .memory (toWord r.address) (if r.onWrite then .write else .read) (requestPredicate r)

/-- The breakpoint of a well-formed `breakOn` request (R275). -/
def breakOnBreakpoint (r : BreakOnRequest) : Breakpoint :=
  match r.insExecuted with
  | some n => .instructionCount n
  | none => .resetVector

end Sys2Proof.Machine
end

