-- ==== Sys2Proof/Machine/PowerReset.lean ====
section
/-! DEFINITION. `PowerUp` and `Reset` (spec 70_reset_and_hazards.md): host operations between instructions, and the loading of
an image before `PowerUp` (R294). -/

namespace Sys2Proof.Machine

/-- The cells `PowerUp` clears, in ascending order (R290): 0x4000..0x4013, 0x4015, 0x4017. -/
def clearedAtPowerUp : List Word :=
  (List.range 20).map (fun k => 0x4000#16 + BitVec.ofNat 16 k) ++ [0x4015#16, 0x4017#16]

/-- Stores 0x00 at each address of a list, in order. -/
def storeZeros (addrs : List Word) (s : State) : State :=
  addrs.foldl (fun t addr => t.store addr 0x00#8) s

/-- `PC` from the reset vector (R290, R291). -/
def State.vectorReset (s : State) : State :=
  s.setPC (s.loadWord Config.resetVector)

/-- `obs.resetPending <- true` (R290, R291). -/
def State.markReset (s : State) : State :=
  { s with obs := { s.obs with resetPending := true } }

/-- `PowerUp()` (R290). -/
def State.powerUp (s : State) : State :=
  let s1 := ((((s.setP 0x34#8).setA 0x00#8).setX 0x00#8).setY 0x00#8).setSP 0xFD#8
  let s2 := (storeZeros clearedAtPowerUp s1).vectorReset
  { s2 with lastExecuted := none, lastExtraCycles := 0 }.markReset

/-- `Reset()` (R291): `SP` lowered by 3 without a stack access, I set, 0x4015 cleared, `PC` from the reset vector. -/
def State.warmReset (s : State) : State :=
  let s1 := (s.setSP (s.sp - 3#8)).setFlag .interruptDisable true
  (s1.store 0x4015#16 0x00#8).vectorReset.markReset

/-- Loads an image, address by address, without recording a store (R54, R294). -/
def State.loadImage (image : List (Word × Byte)) (s : State) : State :=
  image.foldl (fun t c => t.poke c.1 c.2) s

/-- The boot of R294: the host fixes the image, then calls `PowerUp`. -/
def State.boot (image : List (Word × Byte)) : State :=
  (State.reset.loadImage image).powerUp

end Sys2Proof.Machine
end

