-- ==== Sys2Proof/Machine/HostOps.lean ====
section
/-! DEFINITION. The operations the host may invoke (R295), each only between instructions and while the drive loop is not
running: those that change the state are refused while it runs (`applyHostOp`, log 7), those that only read are not (log 18).
`run()` is in Observer.lean. -/

namespace Sys2Proof.Machine

/-! ### Reading (R295)

DESIGN CHOICE, unsafe (log 18): a host read has no test of `driving`; while the drive loop runs, where the spec gives it no outcome,
it answers from the state as it stands between two iterations. The other reads are `State.load`, `State.loadWord`, `getByMode` and
the fields of the three records. -/

/-- `getRegister(name)`, `getPC()` (R11). That it answers while the drive loop runs is the model's choice (log 18). -/
def getRegister (r : RegName) (s : State) : Nat :=
  match r with
  | .a => s.a.toNat
  | .x => s.x.toNat
  | .y => s.y.toNat
  | .sp => s.sp.toNat
  | .p => s.p.toNat
  | .pc => s.pc.toNat

/-- `getMemorySection(start, end)` (R52, D29): both bounds included, no side effect. That it answers while the drive
loop runs is the model's choice (log 18). -/
def getMemorySection (first last : Nat) (s : State) : List Byte :=
  (List.range (last + 1 - first)).map (fun k => s.load (toWord (first + k)))

/-! ### Writing (R295) -/

/-- `setRegister(name, v)`, `setPC(v)` (R11, R12): masked to the register's width. -/
def setRegister (r : RegName) (v : Nat) (s : State) : State :=
  match r with
  | .a => s.setA (toByte v)
  | .x => s.setX (toByte v)
  | .y => s.setY (toByte v)
  | .sp => s.setSP (toByte v)
  | .p => s.setP (toByte v)
  | .pc => s.setPC (toWord v)

/-- The instruction of a map entry for a host-supplied operand, masked to the format's width (R126). -/
def instantiateForm (f : OpForm) (operand : Nat) : Option Instr :=
  match f with
  | .unmapped => none
  | .bare i => some i
  | .byte g => some (g (toByte operand))
  | .word g => some (g (toWord operand))

/-- The host's `Execute(opcode, operand)` (R83, R132, R139): the bytes at `PC` are not read. -/
def executeTuple (opcode : Byte) (operand : Option Nat) (s : State) : Host.Outcome State Fault Refusal :=
  match instantiateForm (opForm opcode) (operand.getD 0) with
  | none => .fault (.unknownInstruction opcode)
  | some i => if i.format.operandPresent operand then afterExecute (exec i s) else .refused (.missingOperand opcode)

/-- The host's `storeByAddressingMode(mode, v, operand)` (R53, R110). -/
def storeByMode (m : Mode) (v operand : Nat) (s : State) : Host.Outcome State Fault Refusal :=
  match setByMode m (toWord operand) (toByte v) s with
  | some t => .next t
  | none => .refused (.readOnlyMode m)

/-! ### The operations that change the state, as data -/

/-- A state-changing operation of the host (R295). -/
inductive HostOp where
  | powerUp
  | reset
  | step
  | execute (opcode : Byte) (operand : Option Nat)
  | setRegister (r : RegName) (v : Nat)
  | store (addr v : Nat)
  | storeWord (addr v : Nat)
  | storeByMode (m : Mode) (v operand : Nat)
  | addBreakpoint (addr : Nat)
  | addMemoryBreakpoint (r : MemoryRequest)
  | breakOn (r : BreakOnRequest)
  | removeBreakpoint (index : Nat)
  deriving DecidableEq, Repr

/-- What a host operation does when the drive loop is not running. -/
def performHostOp (op : HostOp) (s : State) : Host.Outcome State Fault Refusal :=
  match op with
  | .powerUp => .next s.powerUp
  | .reset => .next s.warmReset
  | .step => Sys2Proof.Machine.step s
  | .execute opcode operand => executeTuple opcode operand s
  | .setRegister r v => .next (Sys2Proof.Machine.setRegister r v s)
  | .store addr v => .next (s.store (toWord addr) (toByte v))
  | .storeWord addr v => .next (s.storeWord (toWord addr) (toWord v))
  | .storeByMode m v operand => Sys2Proof.Machine.storeByMode m v operand s
  | .addBreakpoint addr => .next (s.register (.address (toWord addr)))
  | .addMemoryBreakpoint r =>
    if r.wellFormed then .next (s.register (memoryBreakpoint r)) else .refused .malformedBreakpoint
  | .breakOn r =>
    if r.wellFormed then .next (s.register (breakOnBreakpoint r)) else .refused .malformedBreakpoint
  | .removeBreakpoint index => .next (s.unregister index)

/-- A state-changing host operation: only while the drive loop is not running (R275, R295, D29; log 7). -/
def applyHostOp (op : HostOp) (s : State) : Host.Outcome State Fault Refusal :=
  if driving s then .refused .driveLoopRunning else performHostOp op s

end Sys2Proof.Machine
end

