-- ==== Sys2Proof/Safety.lean ====
section
/-! DEFINITION. The terms in which statements are made: the invariant of a run, the operand and the store address of an
instruction by its format, and frames. -/

namespace Sys2Proof.Machine

/-! ### The invariant -/

/-- `lastExecuted` names an instruction of the opcode map with the operand its format takes (R20, R136). -/
def ExecutedLegal (s : State) : Prop :=
  ∀ e, s.lastExecuted = some e → ∃ i : Instr, e = ⟨i.opcode, i.operand⟩

/-- `lastWrite` names a store whose byte is still in memory (R22: it describes a store of the instruction that has retired;
R46: a cell holds the byte last stored to it). -/
def LastWriteVisible (s : State) : Prop :=
  ∀ addr v, s.lastWrite = some (addr, v) → s.load addr = v

/-- What holds right after `PowerUp` and is kept by every step and every host operation: memory in canonical form,
`lastExtraCycles` at most 2 (R21), and the two records as the rules leave them. -/
def Inv (s : State) : Prop :=
  Memory.wf s.mem ∧ s.lastExtraCycles ≤ 2 ∧ ExecutedLegal s ∧ LastWriteVisible s

/-- The part of the state that is the core's: all of it but the observer's own state (R274). -/
def SameCore (s t : State) : Prop :=
  { s with obs := t.obs } = t

/-- `n` calls of `Step` by the host (R274, R278). -/
def stepN : Nat → State → Host.Outcome State Fault Refusal
  | 0, s => .next s
  | n + 1, s =>
    match step s with
    | .next t => stepN n t
    | .fault r => .fault r
    | .refused r => .refused r

/-- Two states that differ at most in the bits of `P` that nothing but PHP and BRK reads: I, D, B and bit 5 (R17, R19). -/
def SameButStorageBits (s t : State) : Prop :=
  { s with p := t.p } = t ∧ ∀ f ∈ [Flag.carry, .zero, .overflow, .negative], s.flag f = t.flag f

/-! ### The tables of the spec -/

/-- The 105 opcode bytes outside the opcode map, as the spec lists them (R78). -/
def unmappedOpcodes : List Byte :=
  [0x02, 0x03, 0x04, 0x07, 0x0B, 0x0C, 0x0F, 0x12, 0x13, 0x14, 0x17, 0x1A, 0x1B, 0x1C, 0x1F] ++
  [0x22, 0x23, 0x27, 0x2B, 0x2F, 0x32, 0x33, 0x34, 0x37, 0x3A, 0x3B, 0x3C, 0x3F] ++
  [0x42, 0x43, 0x44, 0x47, 0x4B, 0x4F, 0x52, 0x53, 0x54, 0x57, 0x5A, 0x5B, 0x5C, 0x5F] ++
  [0x62, 0x63, 0x64, 0x67, 0x6B, 0x6F, 0x72, 0x73, 0x74, 0x77, 0x7A, 0x7B, 0x7C, 0x7F] ++
  [0x80, 0x82, 0x83, 0x87, 0x89, 0x8B, 0x8F, 0x92, 0x93, 0x97, 0x9B, 0x9C, 0x9E, 0x9F] ++
  [0xA3, 0xA7, 0xAB, 0xAF, 0xB2, 0xB3, 0xB7, 0xBB, 0xBF] ++
  [0xC2, 0xC3, 0xC7, 0xCB, 0xCF, 0xD2, 0xD3, 0xD4, 0xD7, 0xDA, 0xDB, 0xDC, 0xDF] ++
  [0xE2, 0xE3, 0xE7, 0xEB, 0xEF, 0xF2, 0xF3, 0xF4, 0xF7, 0xFA, 0xFB, 0xFC, 0xFF]

/-- The mnemonics that write Z and N together (R17). -/
def resultFlagWriters : List Mnemonic :=
  [.adc, .sbc, .and, .ora, .eor, .cmp, .cpx, .cpy, .bit, .asl, .lsr, .rol, .ror, .inc, .dec, .inx, .iny, .dex, .dey] ++
  [.lda, .ldx, .ldy, .tax, .tay, .txa, .tya, .tsx, .pla, .plp, .rti]

/-- The mnemonics that write each flag, as the table of R17 lists them. -/
def flagWriters : Flag → List Mnemonic
  | .carry => [.adc, .sbc, .cmp, .cpx, .cpy, .asl, .lsr, .rol, .ror, .clc, .sec, .plp, .rti]
  | .zero => resultFlagWriters
  | .interruptDisable => [.sei, .cli, .plp, .rti]
  | .decimalMode => [.sed, .cld, .plp, .rti]
  | .breakCommand => [.brk, .plp, .rti]
  | .unused => [.plp, .rti]
  | .overflow => [.adc, .sbc, .bit, .clv, .plp, .rti]
  | .negative => resultFlagWriters

/-- The mnemonics that set `PC` explicitly (R13, R130): "branches, JMP, JSR, RTS, RTI, BRK". -/
def pcSetters : List Mnemonic :=
  [.bcc, .bcs, .beq, .bne, .bmi, .bpl, .bvc, .bvs, .jmp, .jsr, .rts, .rti, .brk]

/-- The mnemonics that store to their operand's address (R170, R194 to R196). -/
def operandStorers : List Mnemonic :=
  [.sta, .stx, .sty, .asl, .lsr, .rol, .ror, .inc, .dec]

/-- The mnemonics that store to the stack (R220, R231, R232, R243). -/
def stackStorers : List Mnemonic :=
  [.pha, .php, .jsr, .brk]

/-! ### Operand and store address by format -/

/-- The operand as a word, 0 for an instruction without one. -/
def operandWord (i : Instr) : Word :=
  i.operand.getD 0#16

/-- The byte `Get(mode, operand)` gives in a state, for the formats whose operand is a byte (R110, R111, R112). The formats
without one (IMP, REL, IND) have the value 0, and no statement uses it. -/
def operandByte (i : Instr) (s : State) : Byte :=
  match i.format with
  | .mode .acc => s.a
  | .mode .imm => lowByte (operandWord i)
  | .mode (.mem m) => s.load (ea m (operandWord i) s)
  | .mode .rel => 0#8
  | .mode .ind => 0#8
  | .implied => 0#8

/-- The address `Set(mode, operand, v)` stores to in a state, none for the formats that store nothing (R110, R111). -/
def storeAddress (i : Instr) (s : State) : Option Word :=
  match i.format with
  | .mode (.mem m) => some (ea m (operandWord i) s)
  | .mode .acc => none
  | .mode .imm => none
  | .mode .rel => none
  | .mode .ind => none
  | .implied => none

/-! ### Completion and frames -/

/-- The instruction completes in a next state with the given property. -/
def Completes (i : Instr) (s : State) (post : State → Prop) : Prop :=
  ∃ t, exec i s = .next t ∧ post t

/-- The frame of an instruction: every register but those named (`P` and `PC` apart), every flag but those named and every
byte of memory but those behind the named addresses is as before; `lastExecuted` is the instruction's own (R136); the
observer's state is untouched (R274). -/
structure Frame (i : Instr) (s t : State) (regs : List RegName) (flags : List Flag) (stored : List Word) : Prop where
  a_kept    : RegName.a ∉ regs → t.a = s.a
  x_kept    : RegName.x ∉ regs → t.x = s.x
  y_kept    : RegName.y ∉ regs → t.y = s.y
  sp_kept   : RegName.sp ∉ regs → t.sp = s.sp
  flag_kept : ∀ f, f ∉ flags → t.flag f = s.flag f
  mem_kept  : ∀ addr, (∀ b ∈ stored, cellOf addr ≠ cellOf b) → t.load addr = s.load addr
  executed  : t.lastExecuted = some ⟨i.opcode, i.operand⟩
  obs_kept  : t.obs = s.obs

/-- Z and N are those of a value (R97, R98). -/
def ShowsZN (v : Byte) (t : State) : Prop :=
  (t.flag .zero = true ↔ v = 0#8) ∧ (t.flag .negative = true ↔ 0x80 ≤ v.toNat)

/-- `PC` has advanced by the instruction's length, modulo 65536 (R133). -/
def Advances (i : Instr) (s t : State) : Prop :=
  t.pc = s.pc + BitVec.ofNat 16 i.length

/-- An instruction that only reads its operand: `PC` advanced, nothing stored, the page-cross penalty charged (R150, R190). -/
def ReadOnlyEnd (i : Instr) (s t : State) : Prop :=
  Advances i s t ∧ t.lastWrite = none ∧ t.lastExtraCycles = pageCrossPenalty i s

/-- A read-modify-write of the operand: `A` in the Accumulator form, otherwise the byte at the effective address, which
`lastWrite` records (R170); only the named flags change, and `PC` advances. -/
def ModifiesOperand (i : Instr) (s t : State) (new : Byte) (flags : List Flag) : Prop :=
  Advances i s t ∧ t.lastExtraCycles = 0 ∧
  match storeAddress i s with
  | none => t.a = new ∧ t.lastWrite = none ∧ Frame i s t [.a] flags []
  | some addr => t.load addr = new ∧ t.lastWrite = some (addr, new) ∧ Frame i s t [] flags [addr]

end Sys2Proof.Machine
end

