-- ==== Sys2Proof/Certificates/Slice0/Obligations.lean ====
section
/-! DEFINITION. The statements about CORE for the provers, one for each rule or group of rules of the spec. `Completes i s post`
says that `exec i s` answers a next state with `post`; `Frame i s t regs flags stored` says what it leaves alone. -/

open Sys2Proof Sys2Proof.Machine

/-! ### Encoding, fetch and dispatch -/

/-- Words written out from the spec's tables decode to the instructions they stand for (R71, R74, R75, R81). -/
def Obligations.WrittenWordsDecode : Prop :=
  decodeTableWord 16 0x3469 = some (.adcImm 0x34) ∧ decodeTableWord 16 0x0F29 = some (.andImm 0x0F) ∧
  decodeTableWord 8 0x0A = some .aslAcc ∧ decodeTableWord 24 0x02007E = some (.rorAbsx 0x0200) ∧
  decodeTableWord 16 0x10A5 = some (.ldaZp 0x10) ∧ decodeTableWord 16 0xFFB6 = some (.ldxZpy 0xFF) ∧
  decodeTableWord 16 0x2091 = some (.staIndy 0x20) ∧ decodeTableWord 16 0xFBA1 = some (.ldaIndx 0xFB) ∧
  decodeTableWord 16 0xF7D0 = some (.bne 0xF7) ∧ decodeTableWord 24 0x40FF6C = some (.jmpInd 0x40FF) ∧
  decodeTableWord 24 0x900020 = some (.jsr 0x9000) ∧ decodeTableWord 8 0x18 = some .clc ∧
  decodeTableWord 8 0x00 = some .brk ∧ decodeTableWord 8 0xFF = none

/-- Bytes decode to an instruction exactly when they begin with that instruction's encoding (R70, R71, R73): every operand
value of every one of the 151 forms comes back, and no other bytes give it. -/
def Obligations.DecodeExactlyTheEncoding : Prop :=
  ∀ (read : Nat → Byte) (i : Instr),
    decode read = .ok i ↔ ∀ (k : Nat) (h : k < (encode i).length), read k = (encode i)[k]

/-- The 105 opcode bytes of R78, and no others, raise `UnknownInstruction(opcode)`, from `Step` and from `Execute`. -/
def Obligations.UnmappedOpcodesRaise : Prop :=
  unmappedOpcodes.length = 105 ∧ unmappedOpcodes.Nodup ∧
  (∀ s : State, s.load s.pc ∈ unmappedOpcodes → step s = .fault (.unknownInstruction (s.load s.pc))) ∧
  (∀ (op : Byte) (operand : Option Nat) (s : State), op ∈ unmappedOpcodes →
    executeTuple op operand s = .fault (.unknownInstruction op)) ∧
  (∀ s : State, s.load s.pc ∉ unmappedOpcodes → ∃ t, step s = .next t)

/-- `UnknownInstruction` with the byte at `PC` is the only way a step stops: no other fault, no refusal (R250, R252). -/
def Obligations.StepStopsOnlyOnUnknownOpcode : Prop :=
  ∀ s : State, (∃ t, step s = .next t) ∨
    (step s = .fault (.unknownInstruction (s.load s.pc)) ∧ mapped (s.load s.pc) = false)

/-- When the bytes at `PC` decode to `i`, a step is `exec i`, after which the observer's `resetPending` is clear (R131; the
clearing is R23's, log 4). -/
def Obligations.StepRunsDecodedInstruction : Prop :=
  ∀ (i : Instr) (s : State),
    (∀ (k : Nat) (h : k < (encode i).length), s.load (s.pc + BitVec.ofNat 16 k) = (encode i)[k]) →
    (∀ t, exec i s = .next t → step s = .next { t with obs := { t.obs with resetPending := false } }) ∧
    (∀ r, exec i s = .fault r → step s = .fault r) ∧ (∀ r, exec i s = .refused r → step s = .refused r)

/-- `Execute` with the tuple that stands at `PC` is `Step` (R131, R132, R139), and every instruction of the map completes. -/
def Obligations.ExecuteOfFetchedTupleIsStep : Prop :=
  ∀ (i : Instr) (s : State), s.fetch = .ok i →
    step s = executeTuple i.opcode (i.operand.map BitVec.toNat) s ∧ ∃ t, step s = .next t

/-- A host tuple (R83, R126): the operand is masked to the format's width and ignored by IMP and ACC, and then the tuple runs
the instruction with that operand; a missing operand is refused. The model's own: `afterExecute` clears `obs.resetPending` after a
host `Execute` too (log 4), and the refusal's name (log 10). -/
def Obligations.HostTupleIsMaskedOrRefused : Prop :=
  ∀ (i : Instr) (s : State),
    (∀ v : Nat, ∃ j : Instr, executeTuple i.opcode (some v) s = afterExecute (exec j s) ∧ j.opcode = i.opcode ∧
      (i.format.operandBytes = 0 → j = i) ∧
      (i.format.operandBytes = 1 → j.operand = some (BitVec.ofNat 16 (v % 0x100))) ∧
      (i.format.operandBytes = 2 → j.operand = some (BitVec.ofNat 16 (v % 0x10000)))) ∧
    (0 < i.format.operandBytes → executeTuple i.opcode none s = .refused (.missingOperand i.opcode)) ∧
    (i.format.operandBytes = 0 → executeTuple i.opcode none s = afterExecute (exec i s))

/-! ### Memory, registers, flags -/

/-- The mirror invariant (R48): a store is seen at every alias of its address and at no other address. The RAM and its mirrors
alias modulo 0x0800, the PPU window and its mirrors modulo 8, every address from 0x4000 up only itself. -/
def Obligations.StoreIsSeenThroughMirrors : Prop :=
  ∀ (s : State) (addr other : Word) (v : Byte), Memory.wf s.mem →
    let aliases :=
      (addr.toNat ≤ 0x1FFF ∧ other.toNat ≤ 0x1FFF ∧ other.toNat % 0x0800 = addr.toNat % 0x0800) ∨
      (0x2000 ≤ addr.toNat ∧ addr.toNat ≤ 0x3FFF ∧ 0x2000 ≤ other.toNat ∧ other.toNat ≤ 0x3FFF ∧
        other.toNat % 8 = addr.toNat % 8) ∨ other = addr
    (aliases → (s.store addr v).load other = v) ∧ (¬ aliases → (s.store addr v).load other = s.load other) ∧
    (addr.toNat ≤ 0x1FFF → (s.store addr v).load (addr ^^^ 0x0800#16) = v)

/-- Word accesses are two byte accesses, low byte first, the second address modulo 65536 (R44, R45); a word store changes nothing
but those two bytes and `lastWrite`. -/
def Obligations.WordAccessIsTwoBytes : Prop :=
  ∀ (s : State) (addr v : Word), Memory.wf s.mem →
    (s.loadWord addr).toNat = (s.load (addr + 1#16)).toNat * 0x100 + (s.load addr).toNat ∧
    (s.storeWord addr v).load addr = lowByte v ∧ (s.storeWord addr v).load (addr + 1#16) = highByte v ∧
    (s.storeWord addr v).lastWrite = some (addr + 1#16, highByte v) ∧
    (∀ other, cellOf other ≠ cellOf addr → cellOf other ≠ cellOf (addr + 1#16) →
      (s.storeWord addr v).load other = s.load other) ∧
    { s.storeWord addr v with mem := s.mem, lastWrite := s.lastWrite } = s

/-- The effective addresses of the memory modes as integers (R113 to R119, R121, R122): zero page wraps modulo 256, the
rest modulo 65536. -/
def Obligations.EffectiveAddressesWrap : Prop :=
  ∀ (w : Word) (s : State),
    (ea .zp w s).toNat = w.toNat % 0x100 ∧
    (ea .zpx w s).toNat = (w.toNat + s.x.toNat) % 0x100 ∧
    (ea .zpy w s).toNat = (w.toNat + s.y.toNat) % 0x100 ∧
    ea .abs w s = w ∧
    (ea .absx w s).toNat = (w.toNat + s.x.toNat) % 0x10000 ∧
    (ea .absy w s).toNat = (w.toNat + s.y.toNat) % 0x10000 ∧
    (ea .indx w s).toNat =
      (s.load (BitVec.ofNat 16 ((w.toNat + s.x.toNat + 1) % 0x100))).toNat * 0x100 +
        (s.load (BitVec.ofNat 16 ((w.toNat + s.x.toNat) % 0x100))).toNat ∧
    (ea .indy w s).toNat =
      ((s.load (BitVec.ofNat 16 ((w.toNat + 1) % 0x100))).toNat * 0x100 +
        (s.load (BitVec.ofNat 16 (w.toNat % 0x100))).toNat + s.y.toNat) % 0x10000

/-- A register write is masked to the register's width and changes that register alone (R12). -/
def Obligations.RegisterWritesAreMasked : Prop :=
  ∀ (r q : RegName) (v : Nat) (s : State),
    getRegister r (setRegister r v s) = (if r = .pc then v % 0x10000 else v % 0x100) ∧
    (q ≠ r → getRegister q (setRegister r v s) = getRegister q s)

/-- A flag write changes that one bit of `P` (R91, R92). -/
def Obligations.FlagWriteTouchesOneBit : Prop :=
  ∀ (f g : Flag) (b : Bool) (s : State),
    (s.setFlag f b).flag f = b ∧ (g ≠ f → (s.setFlag f b).flag g = s.flag g) ∧
    (s.setFlag f b).p = (s.p &&& ~~~ (1#8 <<< flagBit f)) ||| (if b then 1#8 <<< flagBit f else 0#8)

/-! ### Power-up, reset and the invariant -/

/-- `PowerUp` (R290) from any state. -/
def Obligations.PowerUpFixesTheState : Prop :=
  ∀ s : State, Memory.wf s.mem →
    let t := s.powerUp
    t.p = 0x34#8 ∧ t.a = 0#8 ∧ t.x = 0#8 ∧ t.y = 0#8 ∧ t.sp = 0xFD#8 ∧ t.pc = s.loadWord 0xFFFC#16 ∧
    (∀ addr : Word, (0x4000 ≤ addr.toNat ∧ addr.toNat ≤ 0x4013) ∨ addr = 0x4015#16 ∨ addr = 0x4017#16 → t.load addr = 0#8) ∧
    (∀ addr : Word, ¬ ((0x4000 ≤ addr.toNat ∧ addr.toNat ≤ 0x4013) ∨ addr = 0x4015#16 ∨ addr = 0x4017#16) →
      t.load addr = s.load addr) ∧
    t.lastExecuted = none ∧ t.lastExtraCycles = 0 ∧ t.lastWrite = some (0x4017#16, 0#8) ∧
    t.obs = { s.obs with resetPending := true }

/-- `Reset` (R291) from any state. -/
def Obligations.ResetKeepsRegisters : Prop :=
  ∀ s : State, Memory.wf s.mem →
    let t := s.warmReset
    t.a = s.a ∧ t.x = s.x ∧ t.y = s.y ∧ t.sp.toNat = (s.sp.toNat + 0x100 - 3) % 0x100 ∧ t.p = (s.p ||| 0x04#8) ∧
    t.pc = s.loadWord 0xFFFC#16 ∧ t.load 0x4015#16 = 0#8 ∧ (∀ addr, addr ≠ 0x4015#16 → t.load addr = s.load addr) ∧
    t.lastExecuted = s.lastExecuted ∧ t.lastExtraCycles = s.lastExtraCycles ∧ t.lastWrite = some (0x4015#16, 0#8) ∧
    t.obs = { s.obs with resetPending := true }

/-- The reset state is `PowerUp` of a state whose memory lists nothing and whose observer is as constructed (R26; the empty
memory is the model's choice, log 1 and log 2). -/
def Obligations.ResetStateIsPowerUp : Prop :=
  ∀ s : State, s.mem = [] → s.obs.run = .running → s.obs.started = false → s.obs.breakpoints = [] → s.obs.retired = 0 →
    s.powerUp = State.reset

/-- The invariant holds right after `PowerUp`, in `State.reset` and on every well-formed image. -/
def Obligations.PowerUpEstablishesInvariant : Prop :=
  Inv State.reset ∧ ∀ s : State, Memory.wf s.mem → Inv s.powerUp

/-- Every step keeps the invariant: memory in canonical form, `lastExtraCycles` at most 2, `lastExecuted` an instruction of the
map, and the byte `lastWrite` names still in memory (R20 to R22, R24, R46). -/
def Obligations.StepKeepsInvariant : Prop :=
  ∀ s t : State, Inv s → step s = .next t → Inv t

/-- Every host operation that is not refused or faulted keeps the invariant (R295). -/
def Obligations.HostOperationsKeepInvariant : Prop :=
  ∀ (op : HostOp) (s t : State), Inv s → applyHostOp op s = .next t → Inv t

/-! ### Arithmetic, logic, compare -/

/-- ADC (R151). -/
def Obligations.AdcAddsWithCarry : Prop :=
  ∀ (i : Instr) (s : State), i.mnemonic = .adc → Completes i s fun t =>
    let m := operandByte i s
    let result := s.a.toNat + m.toNat + (s.flag .carry).toNat
    t.a.toNat = result % 0x100 ∧ (t.flag .carry = true ↔ 0xFF < result) ∧ ShowsZN t.a t ∧
    (t.flag .overflow = true ↔ m.msb = s.a.msb ∧ t.a.msb ≠ s.a.msb) ∧
    ReadOnlyEnd i s t ∧ Frame i s t [.a] [.carry, .zero, .negative, .overflow] []

/-- ADC's V is the overflow of the signed sum of `A`, the operand and the carry (R99, R100: "the classic two's-complement
overflow test"). -/
def Obligations.AdcOverflowIsSignedOverflow : Prop :=
  ∀ (i : Instr) (s : State), i.mnemonic = .adc → Completes i s fun t =>
    let sum := s.a.toInt + (operandByte i s).toInt + ((s.flag .carry).toNat : Int)
    (t.flag .overflow = true ↔ sum < -128 ∨ 127 < sum) ∧ (t.flag .overflow = false → t.a.toInt = sum)

/-- SBC as the source writes it (R152), not as a MOS 6502 subtracts. -/
def Obligations.SbcAddsTwosComplement : Prop :=
  ∀ (i : Instr) (s : State), i.mnemonic = .sbc → Completes i s fun t =>
    let m := operandByte i s
    let result := s.a.toNat + (0x100 - m.toNat) % 0x100 + (s.flag .carry).toNat
    t.a.toNat = result % 0x100 ∧ (t.flag .carry = true ↔ t.a.toNat < 0x80) ∧ ShowsZN t.a t ∧
    (t.flag .overflow = true ↔ m.msb = s.a.msb ∧ t.a.msb ≠ s.a.msb) ∧
    ReadOnlyEnd i s t ∧ Frame i s t [.a] [.carry, .zero, .negative, .overflow] []

/-- SBC after ADC of the same operand leaves `A + c1 + c2`, with `c1`, `c2` the two carries in: the round trip restores `A`
exactly when both are 0 (R151, R152, Q6). -/
def Obligations.SbcAfterAdcAddsBothCarries : Prop :=
  ∀ (m c : Byte) (s : State), ∃ t u,
    exec (.adcImm m) s = .next t ∧ exec (.sbcImm m) (t.setFlag .carry (c.getLsbD 0)) = .next u ∧
    u.a.toNat = (s.a.toNat + (s.flag .carry).toNat + c.toNat % 2) % 0x100

/-- AND, ORA, EOR (R153, R154, R155). -/
def Obligations.LogicWritesA : Prop :=
  ∀ (i : Instr) (s : State),
    let m := operandByte i s
    let post := fun (result : Byte) (t : State) =>
      t.a = result ∧ ShowsZN result t ∧ ReadOnlyEnd i s t ∧ Frame i s t [.a] [.zero, .negative] []
    (i.mnemonic = .and → Completes i s (post (s.a &&& m))) ∧
    (i.mnemonic = .ora → Completes i s (post (s.a ||| m))) ∧
    (i.mnemonic = .eor → Completes i s (post (s.a ^^^ m)))

/-- CMP, CPX, CPY (R156, R157, R158): only C, Z and N change. -/
def Obligations.ComparesSetFlagsOnly : Prop :=
  ∀ (i : Instr) (s : State),
    let m := operandByte i s
    let post := fun (reg : Byte) (t : State) =>
      (t.flag .carry = true ↔ m.toNat ≤ reg.toNat) ∧ (t.flag .zero = true ↔ reg = m) ∧
      (t.flag .negative = true ↔ 0x80 ≤ (0x100 + reg.toNat - m.toNat) % 0x100) ∧
      ReadOnlyEnd i s t ∧ Frame i s t [] [.carry, .zero, .negative] []
    (i.mnemonic = .cmp → Completes i s (post s.a)) ∧
    (i.mnemonic = .cpx → Completes i s (post s.x)) ∧
    (i.mnemonic = .cpy → Completes i s (post s.y))

/-- BIT (R159). -/
def Obligations.BitTestsMemory : Prop :=
  ∀ (i : Instr) (s : State), i.mnemonic = .bit → Completes i s fun t =>
    let m := operandByte i s
    (t.flag .zero = true ↔ s.a &&& m = 0#8) ∧ t.flag .overflow = m.getLsbD 6 ∧ t.flag .negative = m.getLsbD 7 ∧
    ReadOnlyEnd i s t ∧ Frame i s t [] [.zero, .overflow, .negative] []

/-! ### Shifts, rotates, increments, decrements -/

/-- ASL and ROL (R171, R173): the operand doubled, with 0 or the previous carry in bit 0; C takes bit 7. -/
def Obligations.LeftShiftsModifyOperand : Prop :=
  ∀ (i : Instr) (s : State), Memory.wf s.mem →
    let old := operandByte i s
    let post := fun (cin : Nat) (t : State) => ∃ new : Byte,
      new.toNat = (old.toNat * 2 + cin) % 0x100 ∧ t.flag .carry = old.getLsbD 7 ∧ ShowsZN new t ∧
      ModifiesOperand i s t new [.carry, .zero, .negative]
    (i.mnemonic = .asl → Completes i s (post 0)) ∧
    (i.mnemonic = .rol → Completes i s (post (s.flag .carry).toNat))

/-- LSR and ROR (R172, R174): the operand halved, with 0 or the previous carry in bit 7; C takes bit 0. -/
def Obligations.RightShiftsModifyOperand : Prop :=
  ∀ (i : Instr) (s : State), Memory.wf s.mem →
    let old := operandByte i s
    let post := fun (cin : Nat) (t : State) => ∃ new : Byte,
      new.toNat = old.toNat / 2 + cin * 0x80 ∧ t.flag .carry = old.getLsbD 0 ∧ ShowsZN new t ∧
      ModifiesOperand i s t new [.carry, .zero, .negative]
    (i.mnemonic = .lsr → Completes i s (post 0)) ∧
    (i.mnemonic = .ror → Completes i s (post (s.flag .carry).toNat))

/-- INC and DEC (R175, R176): C and V are not written. -/
def Obligations.IncDecModifyMemory : Prop :=
  ∀ (i : Instr) (s : State), Memory.wf s.mem →
    let old := operandByte i s
    let post := fun (step' : Nat) (t : State) => ∃ new : Byte,
      new.toNat = (old.toNat + step') % 0x100 ∧ ShowsZN new t ∧ ModifiesOperand i s t new [.zero, .negative]
    (i.mnemonic = .inc → Completes i s (post 1)) ∧ (i.mnemonic = .dec → Completes i s (post 0xFF))

/-- INX, INY, DEX, DEY (R177, R178, R179, R180). -/
def Obligations.IndexCountingWraps : Prop :=
  ∀ s : State,
    let post := fun (i : Instr) (new : Byte) (r : RegName) (t : State) =>
      ShowsZN new t ∧ ReadOnlyEnd i s t ∧ t.lastExtraCycles = 0 ∧ Frame i s t [r] [.zero, .negative] []
    Completes .inx s (fun t => t.x.toNat = (s.x.toNat + 1) % 0x100 ∧ post .inx t.x .x t) ∧
    Completes .iny s (fun t => t.y.toNat = (s.y.toNat + 1) % 0x100 ∧ post .iny t.y .y t) ∧
    Completes .dex s (fun t => t.x.toNat = (s.x.toNat + 0xFF) % 0x100 ∧ post .dex t.x .x t) ∧
    Completes .dey s (fun t => t.y.toNat = (s.y.toNat + 0xFF) % 0x100 ∧ post .dey t.y .y t)

/-! ### Loads, stores, transfers -/

/-- LDA, LDX, LDY (R191, R192, R193). -/
def Obligations.LoadsTransferTheOperand : Prop :=
  ∀ (i : Instr) (s : State),
    let v := operandByte i s
    let post := fun (r : RegName) (t : State) =>
      ShowsZN v t ∧ ReadOnlyEnd i s t ∧ Frame i s t [r] [.zero, .negative] []
    (i.mnemonic = .lda → Completes i s fun t => t.a = v ∧ post .a t) ∧
    (i.mnemonic = .ldx → Completes i s fun t => t.x = v ∧ post .x t) ∧
    (i.mnemonic = .ldy → Completes i s fun t => t.y = v ∧ post .y t)

/-- STA, STX, STY (R194, R195, R196): the register's byte at the effective address, no flag written. -/
def Obligations.StoresWriteTheRegister : Prop :=
  ∀ (i : Instr) (s : State), Memory.wf s.mem →
    let post := fun (v : Byte) (t : State) => ∃ addr, storeAddress i s = some addr ∧
      t.load addr = v ∧ t.lastWrite = some (addr, v) ∧ t.p = s.p ∧ Advances i s t ∧ t.lastExtraCycles = 0 ∧
      Frame i s t [] [] [addr]
    (i.mnemonic = .sta → Completes i s (post s.a)) ∧
    (i.mnemonic = .stx → Completes i s (post s.x)) ∧
    (i.mnemonic = .sty → Completes i s (post s.y))

/-- TAX, TAY, TXA, TYA, TSX (R197 to R201): the copy sets Z and N. -/
def Obligations.TransfersCopyAndFlag : Prop :=
  ∀ s : State,
    let post := fun (i : Instr) (v : Byte) (r : RegName) (t : State) =>
      ShowsZN v t ∧ ReadOnlyEnd i s t ∧ t.lastExtraCycles = 0 ∧ Frame i s t [r] [.zero, .negative] []
    Completes .tax s (fun t => t.x = s.a ∧ post .tax s.a .x t) ∧
    Completes .tay s (fun t => t.y = s.a ∧ post .tay s.a .y t) ∧
    Completes .txa s (fun t => t.a = s.x ∧ post .txa s.x .a t) ∧
    Completes .tya s (fun t => t.a = s.y ∧ post .tya s.y .a t) ∧
    Completes .tsx s (fun t => t.x = s.sp ∧ post .tsx s.sp .x t)

/-- TXS (R202): no flag is written. -/
def Obligations.TxsSetsNoFlag : Prop :=
  ∀ s : State, Completes .txs s fun t =>
    t.sp = s.x ∧ t.p = s.p ∧ ReadOnlyEnd .txs s t ∧ t.lastExtraCycles = 0 ∧ Frame .txs s t [.sp] [] []

/-! ### Branches, jumps, subroutines -/

/-- The eight branches (R210 to R218): the flag and polarity of each, the displacement from `PC + 2`, the penalties, and that
nothing else changes. -/
def Obligations.BranchesFollowOneFlag : Prop :=
  ∀ (d : Byte) (s : State),
    let target : Word := BitVec.ofInt 16 (s.pc.toNat + 2 + d.toInt)
    let post := fun (i : Instr) (cond : Bool) (t : State) =>
      (cond = true → t.pc = target ∧
        t.lastExtraCycles = if target.toNat / 0x100 = s.pc.toNat / 0x100 then 1 else 2) ∧
      (cond = false → t.pc = s.pc + 2#16 ∧ t.lastExtraCycles = 0) ∧
      t.lastWrite = none ∧ t.p = s.p ∧ Frame i s t [] [] []
    Completes (.bcc d) s (post (.bcc d) (!s.flag .carry)) ∧ Completes (.bcs d) s (post (.bcs d) (s.flag .carry)) ∧
    Completes (.bne d) s (post (.bne d) (!s.flag .zero)) ∧ Completes (.beq d) s (post (.beq d) (s.flag .zero)) ∧
    Completes (.bpl d) s (post (.bpl d) (!s.flag .negative)) ∧ Completes (.bmi d) s (post (.bmi d) (s.flag .negative)) ∧
    Completes (.bvc d) s (post (.bvc d) (!s.flag .overflow)) ∧ Completes (.bvs d) s (post (.bvs d) (s.flag .overflow))

/-- JMP (R219) with the page bug of the Indirect mode (R120): the pointer's high byte never leaves the pointer's page. -/
def Obligations.JumpsSetPC : Prop :=
  ∀ (w : Word) (s : State),
    let post := fun (i : Instr) (t : State) =>
      t.lastWrite = none ∧ t.lastExtraCycles = 0 ∧ t.p = s.p ∧ Frame i s t [] [] []
    Completes (.jmpAbs w) s (fun t => t.pc = w ∧ post (.jmpAbs w) t) ∧
    Completes (.jmpInd w) s (fun t =>
      t.pc.toNat = (s.load (BitVec.ofNat 16 (w.toNat / 0x100 * 0x100 + (w.toNat + 1) % 0x100))).toNat * 0x100 +
        (s.load w).toNat ∧ post (.jmpInd w) t)

/-- JSR (R220). -/
def Obligations.JsrStoresReturnAddress : Prop :=
  ∀ (w : Word) (s : State), Memory.wf s.mem → Completes (.jsr w) s fun t =>
    let ret := s.pc + 2#16
    t.pc = w ∧ t.sp = s.sp - 2#8 ∧ t.load (stackAddr (s.sp - 1#8)) = lowByte ret ∧ t.load (stackAddr s.sp) = highByte ret ∧
    t.lastWrite = some (stackAddr s.sp, highByte ret) ∧ t.lastExtraCycles = 0 ∧ t.p = s.p ∧
    Frame (.jsr w) s t [.sp] [] [stackAddr (s.sp - 1#8), stackAddr s.sp]

/-- RTS (R221). -/
def Obligations.RtsResumesAfterPulledWord : Prop :=
  ∀ s : State, Completes .rts s fun t =>
    t.pc.toNat = ((s.load (stackAddr (s.sp + 2#8))).toNat * 0x100 + (s.load (stackAddr (s.sp + 1#8))).toNat + 1) % 0x10000 ∧
    t.sp = s.sp + 2#8 ∧ t.lastWrite = none ∧ t.lastExtraCycles = 0 ∧ t.p = s.p ∧ Frame .rts s t [.sp] [] []

/-- An RTS executed right after a JSR resumes at the instruction after the JSR with `SP` restored (R222). -/
def Obligations.RtsReturnsFromJsr : Prop :=
  ∀ (w : Word) (s : State), Memory.wf s.mem → ∃ t u,
    exec (.jsr w) s = .next t ∧ exec .rts t = .next u ∧ u.pc = s.pc + 3#16 ∧ u.sp = s.sp ∧ u.a = s.a ∧ u.x = s.x ∧
    u.y = s.y ∧ u.p = s.p

/-! ### Stack, flags, system -/

/-- Stack addresses are confined to page 1 (R16). -/
def Obligations.StackStaysInPageOne : Prop :=
  ∀ sp : Byte, (stackAddr sp).toNat = 0x100 + sp.toNat ∧ (stackAddr (sp + 1#8)).toNat = 0x100 + (sp.toNat + 1) % 0x100 ∧
    (stackAddr (sp - 1#8)).toNat = 0x100 + (sp.toNat + 0xFF) % 0x100

/-- PHA and PHP (R231, R232): PHP pushes all eight bits as they stand. -/
def Obligations.PushesStoreAtSP : Prop :=
  ∀ s : State, Memory.wf s.mem →
    let post := fun (i : Instr) (v : Byte) (t : State) =>
      t.load (stackAddr s.sp) = v ∧ t.sp = s.sp - 1#8 ∧ t.lastWrite = some (stackAddr s.sp, v) ∧ t.p = s.p ∧
      Advances i s t ∧ t.lastExtraCycles = 0 ∧ Frame i s t [.sp] [] [stackAddr s.sp]
    Completes .pha s (post .pha s.a) ∧ Completes .php s (post .php s.p)

/-- PLA and PLP (R233, R234): PLA sets Z and N, PLP loads all eight bits and no more. -/
def Obligations.PullsReadAboveSP : Prop :=
  ∀ s : State,
    let v := s.load (stackAddr (s.sp + 1#8))
    Completes .pla s (fun t => t.a = v ∧ t.sp = s.sp + 1#8 ∧ ShowsZN v t ∧ ReadOnlyEnd .pla s t ∧ t.lastExtraCycles = 0 ∧
      Frame .pla s t [.a, .sp] [.zero, .negative] []) ∧
    Completes .plp s (fun t => t.p = v ∧ t.sp = s.sp + 1#8 ∧ ReadOnlyEnd .plp s t ∧ t.lastExtraCycles = 0 ∧
      Frame .plp s t [.sp] [.carry, .zero, .interruptDisable, .decimalMode, .breakCommand, .unused, .overflow, .negative] [])

/-- CLC, SEC, CLI, SEI, CLD, SED, CLV (R235 to R241): the one bit of `P`, by the masks of the rules. -/
def Obligations.FlagInstructionsWriteOneBit : Prop :=
  ∀ s : State,
    let post := fun (i : Instr) (p : Byte) (f : Flag) (t : State) =>
      t.p = p ∧ ReadOnlyEnd i s t ∧ t.lastExtraCycles = 0 ∧ Frame i s t [] [f] []
    Completes .clc s (post .clc (s.p &&& 0xFE#8) .carry) ∧ Completes .sec s (post .sec (s.p ||| 0x01#8) .carry) ∧
    Completes .cli s (post .cli (s.p &&& 0xFB#8) .interruptDisable) ∧
    Completes .sei s (post .sei (s.p ||| 0x04#8) .interruptDisable) ∧
    Completes .cld s (post .cld (s.p &&& 0xF7#8) .decimalMode) ∧
    Completes .sed s (post .sed (s.p ||| 0x08#8) .decimalMode) ∧
    Completes .clv s (post .clv (s.p &&& 0xBF#8) .overflow)

/-- NOP (R242). -/
def Obligations.NopOnlyAdvances : Prop :=
  ∀ s : State, exec .nop s =
    .next { s with pc := s.pc + 1#16, lastWrite := none, lastExecuted := some ⟨0xEA#8, none⟩, lastExtraCycles := 0 }

/-- BRK (R243): the trap entry. B is set before `P` is stored, `SP` falls by 2, I is not written. -/
def Obligations.BrkEntersTheTrap : Prop :=
  ∀ s : State, Memory.wf s.mem → Completes .brk s fun t =>
    let ret := s.pc + 2#16
    t.p = (s.p ||| 0x10#8) ∧ t.sp = s.sp - 2#8 ∧ t.pc = s.loadWord 0xFFFE#16 ∧
    t.load (stackAddr s.sp) = lowByte ret ∧ t.load (stackAddr (s.sp - 1#8)) = highByte ret ∧
    t.load (stackAddr (s.sp - 2#8)) = t.p ∧ t.lastWrite = some (stackAddr (s.sp - 2#8), t.p) ∧ t.lastExtraCycles = 0 ∧
    Frame .brk s t [.sp] [.breakCommand] [stackAddr s.sp, stackAddr (s.sp - 1#8), stackAddr (s.sp - 2#8)]

/-- RTI (R244): `P` whole, then `PC` without correction. -/
def Obligations.RtiRestoresPAndPC : Prop :=
  ∀ s : State, Completes .rti s fun t =>
    t.p = s.load (stackAddr (s.sp + 1#8)) ∧
    t.pc.toNat = (s.load (stackAddr (s.sp + 3#8))).toNat * 0x100 + (s.load (stackAddr (s.sp + 2#8))).toNat ∧
    t.sp = s.sp + 3#8 ∧ t.lastWrite = none ∧ t.lastExtraCycles = 0 ∧
    Frame .rti s t [.sp]
      [.carry, .zero, .interruptDisable, .decimalMode, .breakCommand, .unused, .overflow, .negative] []

/-- BRK and RTI do not pair (R245): an RTI right after a BRK takes `P` from the high byte of the return address, the low byte
of `PC` from its low byte, and the high byte of `PC` from a byte BRK did not write. -/
def Obligations.RtiDoesNotUndoBrk : Prop :=
  ∀ s : State, Memory.wf s.mem → ∃ t u,
    exec .brk s = .next t ∧ exec .rti t = .next u ∧
    u.p = highByte (s.pc + 2#16) ∧ lowByte u.pc = lowByte (s.pc + 2#16) ∧
    highByte u.pc = s.load (stackAddr (s.sp + 1#8)) ∧ u.sp = s.sp + 1#8

/-! ### Rules over all instructions -/

/-- Every instruction completes, and each flag is written only by the instructions R17 lists for it. -/
def Obligations.FlagsWrittenOnlyAsListed : Prop :=
  ∀ (i : Instr) (s : State), ∃ t, exec i s = .next t ∧ ∀ f, i.mnemonic ∉ flagWriters f → t.flag f = s.flag f

/-- Which instructions write `A`, `X`, `Y`, `SP`, read off the rules of files 43 to 47 instruction by instruction, and which do
not merely advance `PC` (R13). -/
def Obligations.RegistersWrittenOnlyAsListed : Prop :=
  ∀ (i : Instr) (s t : State), exec i s = .next t →
    (i.mnemonic ∉ [.adc, .sbc, .and, .ora, .eor, .asl, .lsr, .rol, .ror, .lda, .txa, .tya, .pla] → t.a = s.a) ∧
    (i.mnemonic ∉ [.ldx, .tax, .tsx, .inx, .dex] → t.x = s.x) ∧
    (i.mnemonic ∉ [.ldy, .tay, .iny, .dey] → t.y = s.y) ∧
    (i.mnemonic ∉ [.txs, .pha, .php, .pla, .plp, .jsr, .rts, .brk, .rti] → t.sp = s.sp) ∧
    (i.mnemonic ∉ pcSetters → Advances i s t)

/-- Memory changes only at the effective address of a storing instruction (R53, R110), or, by PHA, PHP, JSR and BRK, in the
one, two or three stack slots that the instruction stores to (R231, R232, R220, R243), computed from `SP` as it was before. -/
def Obligations.MemoryChangedOnlyByStores : Prop :=
  ∀ (i : Instr) (s t : State) (addr : Word), exec i s = .next t → t.load addr ≠ s.load addr →
    let behind := fun (slots : List Word) => ∃ slot ∈ slots, cellOf addr = cellOf slot
    (i.mnemonic ∈ operandStorers ∧ ∃ e, storeAddress i s = some e ∧ behind [e]) ∨
    (i.mnemonic ∈ [.pha, .php] ∧ behind [stackAddr s.sp]) ∨
    (i.mnemonic = .jsr ∧ behind [stackAddr (s.sp - 1#8), stackAddr s.sp]) ∨
    (i.mnemonic = .brk ∧ behind [stackAddr s.sp, stackAddr (s.sp - 1#8), stackAddr (s.sp - 2#8)])

/-- I, D, B and bit 5 are storage (R17, R18, R19): from two states that differ only in them, every instruction but PHP and BRK
goes to two states that differ only in them, whatever those bits hold; so no arithmetic, branch or store depends on them. -/
def Obligations.StorageBitsInfluenceNothing : Prop :=
  ∀ (i : Instr) (s s' : State), i.mnemonic ≠ .php → i.mnemonic ≠ .brk → SameButStorageBits s s' →
    ∃ t t', exec i s = .next t ∧ exec i s' = .next t' ∧ SameButStorageBits t t'

/-- The penalty of every instruction but the branches (R77, R124, R137): 1 exactly for an opcode of the page-cross-check set
whose indexed address lies in another page than its base. -/
def Obligations.PageCrossPenalty : Prop :=
  ∀ (i : Instr) (s : State), i.format ≠ .mode .rel →
    let base := match i.format with
      | .mode (.mem .indy) =>
        wordOf (s.load (BitVec.ofNat 16 ((operandWord i).toNat + 1) &&& 0x00FF#16)) (s.load (operandWord i))
      | _ => operandWord i
    Completes i s fun t =>
      t.lastExtraCycles =
        if i.opcode ∈ pageCrossCheckSet ∧ ∃ addr, storeAddress i s = some addr ∧ addr.toNat / 0x100 ≠ base.toNat / 0x100
        then 1 else 0

/-- The records of every instruction (R22, R136): `lastExecuted` names it, and `lastWrite` is none unless it stores. -/
def Obligations.RecordsOfEveryInstruction : Prop :=
  ∀ (i : Instr) (s : State), Completes i s fun t =>
    t.lastExecuted = some ⟨i.opcode, i.operand⟩ ∧ t.obs = s.obs ∧
    (i.mnemonic ∉ stackStorers → (i.mnemonic ∈ operandStorers → storeAddress i s = none) → t.lastWrite = none) ∧
    (∀ addr, i.mnemonic ∈ operandStorers → storeAddress i s = some addr → ∃ v, t.lastWrite = some (addr, v))

/-- A byte stored by an instruction is the opcode the next step executes from there (R57, R298): after a store of a mapped
opcode to an address, a step with `PC` at any alias of it runs an instruction with that opcode. -/
def Obligations.StoresAreSeenByFetch : Prop :=
  ∀ (i : Instr) (s : State) (addr pc : Word) (v : Byte), Memory.wf s.mem → i.opcode = v → cellOf pc = cellOf addr →
    ∃ (j : Instr) (t : State), step ((s.store addr v).setPC pc) = .next t ∧ j.opcode = v ∧ t.lastExecuted = some ⟨v, j.operand⟩

/-! ### The observer -/

/-- The observer is a passive tap (R274): the core states of the drive loop are those of calls of `Step`, as many as the loop
has counted in `obs.retired` (R268). The bound `n` on the loop's iterations is the model's own (log 6). -/
def Obligations.DriveLoopIsStepping : Prop :=
  ∀ (n : Nat) (s : State),
    let after := fun (k : Nat) (t u : State) => stepN k s = .next u ∧ SameCore u t ∧ t.obs.retired = s.obs.retired + k
    match driveLoop n s with
    | .running t => ∃ u, after n t u
    | .paused e t => ∃ k ≤ n, ∃ u, after k t u ∧ e = pauseEvent u
    | .faulted r t => ∃ k < n, ∃ u, after k t u ∧ step u = .fault r
    | .refused _ _ => False

/-- One iteration of the drive loop after the reset test (R268, R277): it pauses exactly when a breakpoint fires in the state
after the retired instruction, and a fault stops it without an event. -/
def Obligations.DriveIterationPausesOnFiring : Prop :=
  ∀ s : State, resetBreak s = false →
    (∀ r, step s = .fault r → driveIteration s = .faulted r { s with obs := { s.obs with run := .paused } }) ∧
    (∀ t, step s = .next t →
      let u := { t with obs := { s.obs with retired := s.obs.retired + 1, resetPending := false } }
      ((∃ bp ∈ s.obs.breakpoints, fires bp u = true) →
        driveIteration s = .paused (pauseEvent u) { u with obs := { u.obs with run := .paused } }) ∧
      ((∀ bp ∈ s.obs.breakpoints, fires bp u = false) → driveIteration s = .running u))

/-- A registered ResetVectorBreakpoint pauses before the first instruction after `PowerUp` or `Reset`, wherever it stands in the
list, and the next `run()` proceeds (R272). -/
def Obligations.ResetVectorBreakpointFiresFirst : Prop :=
  ∀ (s : State) (n : Nat), driving s = false → s.obs.resetPending = true → .resetVector ∈ s.obs.breakpoints →
    ∃ t, run (n + 1) s = .paused (pauseEvent s) t ∧ SameCore s t ∧ t.obs.run = .paused ∧ t.obs.retired = 0 ∧
      t.obs.resetPending = false ∧ t.obs.breakpoints = s.obs.breakpoints ∧ resetBreak t.startRun = false

/-- When each breakpoint fires (R269, R270, R271). -/
def Obligations.BreakpointsFireAsStated : Prop :=
  ∀ (s : State) (pc addr : Word) (v lo hi : Byte) (pred : Predicate) (n : Nat),
    (fires (.address pc) s = true ↔ s.pc = pc) ∧
    (fires (.memory addr .write (.equalTo v)) s = true ↔ s.lastWrite = some (addr, v)) ∧
    (fires (.memory addr .write (.range lo hi)) s = true ↔
      ∃ w, s.lastWrite = some (addr, w) ∧ lo.toNat ≤ w.toNat ∧ w.toNat ≤ hi.toNat) ∧
    fires (.memory addr .read pred) s = false ∧
    (fires (.instructionCount n) s = true ↔ s.obs.retired = n) ∧ fires .resetVector s = false

/-- Registration appends a masked breakpoint at the end of the list (R275), and a malformed request is refused (R276; the model's
own: the refusal's name, and that `breakOn` with both or neither form is malformed, log 10). While the loop runs nothing is
registered or removed: every call is refused by name (R275; the model's reading, log 7). -/
def Obligations.RegistrationAppendsOrRefuses : Prop :=
  ∀ (s : State) (r : MemoryRequest) (b : BreakOnRequest) (addr : Nat),
    let appends := fun (op : HostOp) (bp : Breakpoint) =>
      applyHostOp op s = .next { s with obs := { s.obs with breakpoints := s.obs.breakpoints ++ [bp] } }
    let access := if r.onWrite then Access.write else Access.read
    (driving s = true →
      applyHostOp (.addBreakpoint addr) s = .refused .driveLoopRunning ∧
      applyHostOp (.addMemoryBreakpoint r) s = .refused .driveLoopRunning ∧
      applyHostOp (.breakOn b) s = .refused .driveLoopRunning ∧
      ∀ k, applyHostOp (.removeBreakpoint k) s = .refused .driveLoopRunning) ∧
    (driving s = false →
      appends (.addBreakpoint addr) (.address (BitVec.ofNat 16 addr)) ∧
      (r.wellFormed = false → applyHostOp (.addMemoryBreakpoint r) s = .refused .malformedBreakpoint) ∧
      (b.wellFormed = false → applyHostOp (.breakOn b) s = .refused .malformedBreakpoint) ∧
      (∀ v, r.equalsTo = some v → r.greaterThanOrEquals = none → r.lessThanOrEquals = none → r.onWrite = !r.onRead →
        appends (.addMemoryBreakpoint r) (.memory (BitVec.ofNat 16 r.address) access (.equalTo (BitVec.ofNat 8 v)))) ∧
      (∀ lo hi, r.equalsTo = none → r.greaterThanOrEquals = some lo → r.lessThanOrEquals = some hi → r.onWrite = !r.onRead →
        appends (.addMemoryBreakpoint r)
          (.memory (BitVec.ofNat 16 r.address) access (.range (BitVec.ofNat 8 lo) (BitVec.ofNat 8 hi)))) ∧
      (∀ n, b = ⟨some n, false⟩ → appends (.breakOn b) (.instructionCount n)) ∧
      (b = ⟨none, true⟩ → appends (.breakOn b) .resetVector))
end

