-- ==== Sys2Proof/Laws/Bits.lean ====
section
/-! SUPPORT. The byte helpers as integers: words and their halves, zero extension, sign interpretation, the two's complement. -/

namespace Sys2Proof

theorem wordOf_toNat (hi lo : Byte) : (wordOf hi lo).toNat = hi.toNat * 0x100 + lo.toNat := by
  have := lo.isLt
  rw [wordOf, BitVec.toNat_append, ← Nat.shiftLeft_add_eq_or_of_lt this, Nat.shiftLeft_eq]

theorem lowByte_toNat (w : Word) : (lowByte w).toNat = w.toNat % 0x100 := by
  simp [lowByte]

theorem highByte_toNat (w : Word) : (highByte w).toNat = w.toNat / 0x100 := by
  have := w.isLt
  simp [highByte, Nat.shiftRight_eq_div_pow]
  omega

theorem zeroExtend_toNat (b : Byte) : (zeroExtend b).toNat = b.toNat := by
  have := b.isLt
  simp [zeroExtend]
  omega

@[simp] theorem lowByte_wordOf (hi lo : Byte) : lowByte (wordOf hi lo) = lo := by
  apply BitVec.eq_of_toNat_eq
  have := lo.isLt
  rw [lowByte_toNat, wordOf_toNat]
  omega

@[simp] theorem highByte_wordOf (hi lo : Byte) : highByte (wordOf hi lo) = hi := by
  apply BitVec.eq_of_toNat_eq
  have := lo.isLt
  rw [highByte_toNat, wordOf_toNat]
  omega

@[simp] theorem wordOf_high_low (w : Word) : wordOf (highByte w) (lowByte w) = w := by
  apply BitVec.eq_of_toNat_eq
  rw [wordOf_toNat, highByte_toNat, lowByte_toNat]
  omega

@[simp] theorem lowByte_zeroExtend (b : Byte) : lowByte (zeroExtend b) = b := by
  apply BitVec.eq_of_toNat_eq
  have := b.isLt
  rw [lowByte_toNat, zeroExtend_toNat]
  omega

theorem toByte_toNat_eq (v : Nat) : (toByte v).toNat = v % 0x100 := by
  simp [toByte]

theorem toWord_toNat (v : Nat) : (toWord v).toNat = v % 0x10000 := by
  simp [toWord]

/-- The sign interpretation of a byte is its value as a signed bit vector (R94). -/
theorem signedByte_eq_toInt (b : Byte) : signedByte b.toNat = b.toInt := by
  have := b.isLt
  rw [signedByte, BitVec.toInt_eq_toNat_cond]
  split <;> split <;> omega

/-- Only the low 8 bits of the argument matter (R94). -/
theorem signedByte_mod (v : Nat) : signedByte (v % 0x100) = signedByte v := by
  simp only [signedByte, Nat.mod_mod]

/-- The sign interpretation is non-negative exactly below 0x80 (R94). -/
theorem signedByte_nonneg (v : Nat) : 0 ≤ signedByte v ↔ v % 0x100 < 0x80 := by
  simp only [signedByte]
  split <;> omega

theorem twoComplement_toNat (b : Byte) : (twoComplement b).toNat = (0x100 - b.toNat) % 0x100 := by
  rw [twoComplement, toByte_toNat_eq]

end Sys2Proof
end

