-- ==== Sys2Proof/Laws/State.lean ====
section
/-! SUPPORT. One lemma per field and update of the state, true by `rfl`, so that no proof unfolds a record update. -/

namespace Sys2Proof.Machine

/-! ### A -/

@[simp] theorem State.setA_a (v : Byte) (s : State) : (s.setA v).a = v := rfl
@[simp] theorem State.setA_x (v : Byte) (s : State) : (s.setA v).x = s.x := rfl
@[simp] theorem State.setA_y (v : Byte) (s : State) : (s.setA v).y = s.y := rfl
@[simp] theorem State.setA_sp (v : Byte) (s : State) : (s.setA v).sp = s.sp := rfl
@[simp] theorem State.setA_p (v : Byte) (s : State) : (s.setA v).p = s.p := rfl
@[simp] theorem State.setA_pc (v : Byte) (s : State) : (s.setA v).pc = s.pc := rfl
@[simp] theorem State.setA_mem (v : Byte) (s : State) : (s.setA v).mem = s.mem := rfl
@[simp] theorem State.setA_lastExecuted (v : Byte) (s : State) : (s.setA v).lastExecuted = s.lastExecuted := rfl
@[simp] theorem State.setA_lastExtraCycles (v : Byte) (s : State) : (s.setA v).lastExtraCycles = s.lastExtraCycles := rfl
@[simp] theorem State.setA_lastWrite (v : Byte) (s : State) : (s.setA v).lastWrite = s.lastWrite := rfl
@[simp] theorem State.setA_obs (v : Byte) (s : State) : (s.setA v).obs = s.obs := rfl

/-! ### X -/

@[simp] theorem State.setX_a (v : Byte) (s : State) : (s.setX v).a = s.a := rfl
@[simp] theorem State.setX_x (v : Byte) (s : State) : (s.setX v).x = v := rfl
@[simp] theorem State.setX_y (v : Byte) (s : State) : (s.setX v).y = s.y := rfl
@[simp] theorem State.setX_sp (v : Byte) (s : State) : (s.setX v).sp = s.sp := rfl
@[simp] theorem State.setX_p (v : Byte) (s : State) : (s.setX v).p = s.p := rfl
@[simp] theorem State.setX_pc (v : Byte) (s : State) : (s.setX v).pc = s.pc := rfl
@[simp] theorem State.setX_mem (v : Byte) (s : State) : (s.setX v).mem = s.mem := rfl
@[simp] theorem State.setX_lastExecuted (v : Byte) (s : State) : (s.setX v).lastExecuted = s.lastExecuted := rfl
@[simp] theorem State.setX_lastExtraCycles (v : Byte) (s : State) : (s.setX v).lastExtraCycles = s.lastExtraCycles := rfl
@[simp] theorem State.setX_lastWrite (v : Byte) (s : State) : (s.setX v).lastWrite = s.lastWrite := rfl
@[simp] theorem State.setX_obs (v : Byte) (s : State) : (s.setX v).obs = s.obs := rfl

/-! ### Y -/

@[simp] theorem State.setY_a (v : Byte) (s : State) : (s.setY v).a = s.a := rfl
@[simp] theorem State.setY_x (v : Byte) (s : State) : (s.setY v).x = s.x := rfl
@[simp] theorem State.setY_y (v : Byte) (s : State) : (s.setY v).y = v := rfl
@[simp] theorem State.setY_sp (v : Byte) (s : State) : (s.setY v).sp = s.sp := rfl
@[simp] theorem State.setY_p (v : Byte) (s : State) : (s.setY v).p = s.p := rfl
@[simp] theorem State.setY_pc (v : Byte) (s : State) : (s.setY v).pc = s.pc := rfl
@[simp] theorem State.setY_mem (v : Byte) (s : State) : (s.setY v).mem = s.mem := rfl
@[simp] theorem State.setY_lastExecuted (v : Byte) (s : State) : (s.setY v).lastExecuted = s.lastExecuted := rfl
@[simp] theorem State.setY_lastExtraCycles (v : Byte) (s : State) : (s.setY v).lastExtraCycles = s.lastExtraCycles := rfl
@[simp] theorem State.setY_lastWrite (v : Byte) (s : State) : (s.setY v).lastWrite = s.lastWrite := rfl
@[simp] theorem State.setY_obs (v : Byte) (s : State) : (s.setY v).obs = s.obs := rfl

/-! ### SP -/

@[simp] theorem State.setSP_a (v : Byte) (s : State) : (s.setSP v).a = s.a := rfl
@[simp] theorem State.setSP_x (v : Byte) (s : State) : (s.setSP v).x = s.x := rfl
@[simp] theorem State.setSP_y (v : Byte) (s : State) : (s.setSP v).y = s.y := rfl
@[simp] theorem State.setSP_sp (v : Byte) (s : State) : (s.setSP v).sp = v := rfl
@[simp] theorem State.setSP_p (v : Byte) (s : State) : (s.setSP v).p = s.p := rfl
@[simp] theorem State.setSP_pc (v : Byte) (s : State) : (s.setSP v).pc = s.pc := rfl
@[simp] theorem State.setSP_mem (v : Byte) (s : State) : (s.setSP v).mem = s.mem := rfl
@[simp] theorem State.setSP_lastExecuted (v : Byte) (s : State) : (s.setSP v).lastExecuted = s.lastExecuted := rfl
@[simp] theorem State.setSP_lastExtraCycles (v : Byte) (s : State) : (s.setSP v).lastExtraCycles = s.lastExtraCycles := rfl
@[simp] theorem State.setSP_lastWrite (v : Byte) (s : State) : (s.setSP v).lastWrite = s.lastWrite := rfl
@[simp] theorem State.setSP_obs (v : Byte) (s : State) : (s.setSP v).obs = s.obs := rfl

/-! ### P -/

@[simp] theorem State.setP_a (v : Byte) (s : State) : (s.setP v).a = s.a := rfl
@[simp] theorem State.setP_x (v : Byte) (s : State) : (s.setP v).x = s.x := rfl
@[simp] theorem State.setP_y (v : Byte) (s : State) : (s.setP v).y = s.y := rfl
@[simp] theorem State.setP_sp (v : Byte) (s : State) : (s.setP v).sp = s.sp := rfl
@[simp] theorem State.setP_p (v : Byte) (s : State) : (s.setP v).p = v := rfl
@[simp] theorem State.setP_pc (v : Byte) (s : State) : (s.setP v).pc = s.pc := rfl
@[simp] theorem State.setP_mem (v : Byte) (s : State) : (s.setP v).mem = s.mem := rfl
@[simp] theorem State.setP_lastExecuted (v : Byte) (s : State) : (s.setP v).lastExecuted = s.lastExecuted := rfl
@[simp] theorem State.setP_lastExtraCycles (v : Byte) (s : State) : (s.setP v).lastExtraCycles = s.lastExtraCycles := rfl
@[simp] theorem State.setP_lastWrite (v : Byte) (s : State) : (s.setP v).lastWrite = s.lastWrite := rfl
@[simp] theorem State.setP_obs (v : Byte) (s : State) : (s.setP v).obs = s.obs := rfl

/-! ### PC -/

@[simp] theorem State.setPC_a (v : Word) (s : State) : (s.setPC v).a = s.a := rfl
@[simp] theorem State.setPC_x (v : Word) (s : State) : (s.setPC v).x = s.x := rfl
@[simp] theorem State.setPC_y (v : Word) (s : State) : (s.setPC v).y = s.y := rfl
@[simp] theorem State.setPC_sp (v : Word) (s : State) : (s.setPC v).sp = s.sp := rfl
@[simp] theorem State.setPC_p (v : Word) (s : State) : (s.setPC v).p = s.p := rfl
@[simp] theorem State.setPC_pc (v : Word) (s : State) : (s.setPC v).pc = v := rfl
@[simp] theorem State.setPC_mem (v : Word) (s : State) : (s.setPC v).mem = s.mem := rfl
@[simp] theorem State.setPC_lastExecuted (v : Word) (s : State) : (s.setPC v).lastExecuted = s.lastExecuted := rfl
@[simp] theorem State.setPC_lastExtraCycles (v : Word) (s : State) : (s.setPC v).lastExtraCycles = s.lastExtraCycles := rfl
@[simp] theorem State.setPC_lastWrite (v : Word) (s : State) : (s.setPC v).lastWrite = s.lastWrite := rfl
@[simp] theorem State.setPC_obs (v : Word) (s : State) : (s.setPC v).obs = s.obs := rfl

/-! ### Flags -/

@[simp] theorem State.setFlag_a (f : Flag) (b : Bool) (s : State) : (s.setFlag f b).a = s.a := rfl
@[simp] theorem State.setFlag_x (f : Flag) (b : Bool) (s : State) : (s.setFlag f b).x = s.x := rfl
@[simp] theorem State.setFlag_y (f : Flag) (b : Bool) (s : State) : (s.setFlag f b).y = s.y := rfl
@[simp] theorem State.setFlag_sp (f : Flag) (b : Bool) (s : State) : (s.setFlag f b).sp = s.sp := rfl
@[simp] theorem State.setFlag_p (f : Flag) (b : Bool) (s : State) : (s.setFlag f b).p = withFlag f b s.p := rfl
@[simp] theorem State.setFlag_pc (f : Flag) (b : Bool) (s : State) : (s.setFlag f b).pc = s.pc := rfl
@[simp] theorem State.setFlag_mem (f : Flag) (b : Bool) (s : State) : (s.setFlag f b).mem = s.mem := rfl
@[simp] theorem State.setFlag_lastExecuted (f : Flag) (b : Bool) (s : State) : (s.setFlag f b).lastExecuted = s.lastExecuted := rfl
@[simp] theorem State.setFlag_lastExtraCycles (f : Flag) (b : Bool) (s : State) : (s.setFlag f b).lastExtraCycles = s.lastExtraCycles := rfl
@[simp] theorem State.setFlag_lastWrite (f : Flag) (b : Bool) (s : State) : (s.setFlag f b).lastWrite = s.lastWrite := rfl
@[simp] theorem State.setFlag_obs (f : Flag) (b : Bool) (s : State) : (s.setFlag f b).obs = s.obs := rfl

/-! ### Z and N -/

@[simp] theorem State.setZN_a (v : Nat) (s : State) : (s.setZN v).a = s.a := rfl
@[simp] theorem State.setZN_x (v : Nat) (s : State) : (s.setZN v).x = s.x := rfl
@[simp] theorem State.setZN_y (v : Nat) (s : State) : (s.setZN v).y = s.y := rfl
@[simp] theorem State.setZN_sp (v : Nat) (s : State) : (s.setZN v).sp = s.sp := rfl
@[simp] theorem State.setZN_p (v : Nat) (s : State) : (s.setZN v).p = withZN v s.p := rfl
@[simp] theorem State.setZN_pc (v : Nat) (s : State) : (s.setZN v).pc = s.pc := rfl
@[simp] theorem State.setZN_mem (v : Nat) (s : State) : (s.setZN v).mem = s.mem := rfl
@[simp] theorem State.setZN_lastExecuted (v : Nat) (s : State) : (s.setZN v).lastExecuted = s.lastExecuted := rfl
@[simp] theorem State.setZN_lastExtraCycles (v : Nat) (s : State) : (s.setZN v).lastExtraCycles = s.lastExtraCycles := rfl
@[simp] theorem State.setZN_lastWrite (v : Nat) (s : State) : (s.setZN v).lastWrite = s.lastWrite := rfl
@[simp] theorem State.setZN_obs (v : Nat) (s : State) : (s.setZN v).obs = s.obs := rfl

/-! ### V -/

@[simp] theorem State.setV_a (r : Nat) (a : Byte) (b : Byte) (s : State) : (s.setV r a b).a = s.a := rfl
@[simp] theorem State.setV_x (r : Nat) (a : Byte) (b : Byte) (s : State) : (s.setV r a b).x = s.x := rfl
@[simp] theorem State.setV_y (r : Nat) (a : Byte) (b : Byte) (s : State) : (s.setV r a b).y = s.y := rfl
@[simp] theorem State.setV_sp (r : Nat) (a : Byte) (b : Byte) (s : State) : (s.setV r a b).sp = s.sp := rfl
@[simp] theorem State.setV_p (r : Nat) (a : Byte) (b : Byte) (s : State) : (s.setV r a b).p = withOverflow r a b s.p := rfl
@[simp] theorem State.setV_pc (r : Nat) (a : Byte) (b : Byte) (s : State) : (s.setV r a b).pc = s.pc := rfl
@[simp] theorem State.setV_mem (r : Nat) (a : Byte) (b : Byte) (s : State) : (s.setV r a b).mem = s.mem := rfl
@[simp] theorem State.setV_lastExecuted (r : Nat) (a : Byte) (b : Byte) (s : State) : (s.setV r a b).lastExecuted = s.lastExecuted := rfl
@[simp] theorem State.setV_lastExtraCycles (r : Nat) (a : Byte) (b : Byte) (s : State) : (s.setV r a b).lastExtraCycles = s.lastExtraCycles := rfl
@[simp] theorem State.setV_lastWrite (r : Nat) (a : Byte) (b : Byte) (s : State) : (s.setV r a b).lastWrite = s.lastWrite := rfl
@[simp] theorem State.setV_obs (r : Nat) (a : Byte) (b : Byte) (s : State) : (s.setV r a b).obs = s.obs := rfl

/-! ### Memory -/

@[simp] theorem State.poke_a (addr : Word) (v : Byte) (s : State) : (s.poke addr v).a = s.a := rfl
@[simp] theorem State.poke_x (addr : Word) (v : Byte) (s : State) : (s.poke addr v).x = s.x := rfl
@[simp] theorem State.poke_y (addr : Word) (v : Byte) (s : State) : (s.poke addr v).y = s.y := rfl
@[simp] theorem State.poke_sp (addr : Word) (v : Byte) (s : State) : (s.poke addr v).sp = s.sp := rfl
@[simp] theorem State.poke_p (addr : Word) (v : Byte) (s : State) : (s.poke addr v).p = s.p := rfl
@[simp] theorem State.poke_pc (addr : Word) (v : Byte) (s : State) : (s.poke addr v).pc = s.pc := rfl
@[simp] theorem State.poke_mem (addr : Word) (v : Byte) (s : State) : (s.poke addr v).mem = Memory.write s.mem (cellOf addr) v := rfl
@[simp] theorem State.poke_lastExecuted (addr : Word) (v : Byte) (s : State) : (s.poke addr v).lastExecuted = s.lastExecuted := rfl
@[simp] theorem State.poke_lastExtraCycles (addr : Word) (v : Byte) (s : State) : (s.poke addr v).lastExtraCycles = s.lastExtraCycles := rfl
@[simp] theorem State.poke_lastWrite (addr : Word) (v : Byte) (s : State) : (s.poke addr v).lastWrite = s.lastWrite := rfl
@[simp] theorem State.poke_obs (addr : Word) (v : Byte) (s : State) : (s.poke addr v).obs = s.obs := rfl

/-! ### Stores -/

@[simp] theorem State.store_a (addr : Word) (v : Byte) (s : State) : (s.store addr v).a = s.a := rfl
@[simp] theorem State.store_x (addr : Word) (v : Byte) (s : State) : (s.store addr v).x = s.x := rfl
@[simp] theorem State.store_y (addr : Word) (v : Byte) (s : State) : (s.store addr v).y = s.y := rfl
@[simp] theorem State.store_sp (addr : Word) (v : Byte) (s : State) : (s.store addr v).sp = s.sp := rfl
@[simp] theorem State.store_p (addr : Word) (v : Byte) (s : State) : (s.store addr v).p = s.p := rfl
@[simp] theorem State.store_pc (addr : Word) (v : Byte) (s : State) : (s.store addr v).pc = s.pc := rfl
@[simp] theorem State.store_mem (addr : Word) (v : Byte) (s : State) : (s.store addr v).mem = Memory.write s.mem (cellOf addr) v := rfl
@[simp] theorem State.store_lastExecuted (addr : Word) (v : Byte) (s : State) : (s.store addr v).lastExecuted = s.lastExecuted := rfl
@[simp] theorem State.store_lastExtraCycles (addr : Word) (v : Byte) (s : State) : (s.store addr v).lastExtraCycles = s.lastExtraCycles := rfl
@[simp] theorem State.store_lastWrite (addr : Word) (v : Byte) (s : State) : (s.store addr v).lastWrite = some (addr, v) := rfl
@[simp] theorem State.store_obs (addr : Word) (v : Byte) (s : State) : (s.store addr v).obs = s.obs := rfl

/-! ### Push -/

@[simp] theorem State.push_a (v : Byte) (s : State) : (s.push v).a = s.a := rfl
@[simp] theorem State.push_x (v : Byte) (s : State) : (s.push v).x = s.x := rfl
@[simp] theorem State.push_y (v : Byte) (s : State) : (s.push v).y = s.y := rfl
@[simp] theorem State.push_sp (v : Byte) (s : State) : (s.push v).sp = s.sp - 1#8 := rfl
@[simp] theorem State.push_p (v : Byte) (s : State) : (s.push v).p = s.p := rfl
@[simp] theorem State.push_pc (v : Byte) (s : State) : (s.push v).pc = s.pc := rfl
@[simp] theorem State.push_mem (v : Byte) (s : State) : (s.push v).mem = Memory.write s.mem (cellOf (stackAddr s.sp)) v := rfl
@[simp] theorem State.push_lastExecuted (v : Byte) (s : State) : (s.push v).lastExecuted = s.lastExecuted := rfl
@[simp] theorem State.push_lastExtraCycles (v : Byte) (s : State) : (s.push v).lastExtraCycles = s.lastExtraCycles := rfl
@[simp] theorem State.push_lastWrite (v : Byte) (s : State) : (s.push v).lastWrite = some (stackAddr s.sp, v) := rfl
@[simp] theorem State.push_obs (v : Byte) (s : State) : (s.push v).obs = s.obs := rfl

/-! ### Pull -/

@[simp] theorem State.afterPull_a (s : State) : (s.afterPull).a = s.a := rfl
@[simp] theorem State.afterPull_x (s : State) : (s.afterPull).x = s.x := rfl
@[simp] theorem State.afterPull_y (s : State) : (s.afterPull).y = s.y := rfl
@[simp] theorem State.afterPull_sp (s : State) : (s.afterPull).sp = s.sp + 1#8 := rfl
@[simp] theorem State.afterPull_p (s : State) : (s.afterPull).p = s.p := rfl
@[simp] theorem State.afterPull_pc (s : State) : (s.afterPull).pc = s.pc := rfl
@[simp] theorem State.afterPull_mem (s : State) : (s.afterPull).mem = s.mem := rfl
@[simp] theorem State.afterPull_lastExecuted (s : State) : (s.afterPull).lastExecuted = s.lastExecuted := rfl
@[simp] theorem State.afterPull_lastExtraCycles (s : State) : (s.afterPull).lastExtraCycles = s.lastExtraCycles := rfl
@[simp] theorem State.afterPull_lastWrite (s : State) : (s.afterPull).lastWrite = s.lastWrite := rfl
@[simp] theorem State.afterPull_obs (s : State) : (s.afterPull).obs = s.obs := rfl

/-! ### The beginning of an Execute -/

@[simp] theorem State.beginExecute_a (s : State) : (s.beginExecute).a = s.a := rfl
@[simp] theorem State.beginExecute_x (s : State) : (s.beginExecute).x = s.x := rfl
@[simp] theorem State.beginExecute_y (s : State) : (s.beginExecute).y = s.y := rfl
@[simp] theorem State.beginExecute_sp (s : State) : (s.beginExecute).sp = s.sp := rfl
@[simp] theorem State.beginExecute_p (s : State) : (s.beginExecute).p = s.p := rfl
@[simp] theorem State.beginExecute_pc (s : State) : (s.beginExecute).pc = s.pc := rfl
@[simp] theorem State.beginExecute_mem (s : State) : (s.beginExecute).mem = s.mem := rfl
@[simp] theorem State.beginExecute_lastExecuted (s : State) : (s.beginExecute).lastExecuted = s.lastExecuted := rfl
@[simp] theorem State.beginExecute_lastExtraCycles (s : State) : (s.beginExecute).lastExtraCycles = s.lastExtraCycles := rfl
@[simp] theorem State.beginExecute_lastWrite (s : State) : (s.beginExecute).lastWrite = none := rfl
@[simp] theorem State.beginExecute_obs (s : State) : (s.beginExecute).obs = s.obs := rfl

/-! ### The records -/

@[simp] theorem State.record_a (i : Instr) (n : Nat) (s : State) : (s.record i n).a = s.a := rfl
@[simp] theorem State.record_x (i : Instr) (n : Nat) (s : State) : (s.record i n).x = s.x := rfl
@[simp] theorem State.record_y (i : Instr) (n : Nat) (s : State) : (s.record i n).y = s.y := rfl
@[simp] theorem State.record_sp (i : Instr) (n : Nat) (s : State) : (s.record i n).sp = s.sp := rfl
@[simp] theorem State.record_p (i : Instr) (n : Nat) (s : State) : (s.record i n).p = s.p := rfl
@[simp] theorem State.record_pc (i : Instr) (n : Nat) (s : State) : (s.record i n).pc = s.pc := rfl
@[simp] theorem State.record_mem (i : Instr) (n : Nat) (s : State) : (s.record i n).mem = s.mem := rfl
@[simp] theorem State.record_lastExecuted (i : Instr) (n : Nat) (s : State) : (s.record i n).lastExecuted = some ⟨i.opcode, i.operand⟩ := rfl
@[simp] theorem State.record_lastExtraCycles (i : Instr) (n : Nat) (s : State) : (s.record i n).lastExtraCycles = n := rfl
@[simp] theorem State.record_lastWrite (i : Instr) (n : Nat) (s : State) : (s.record i n).lastWrite = s.lastWrite := rfl
@[simp] theorem State.record_obs (i : Instr) (n : Nat) (s : State) : (s.record i n).obs = s.obs := rfl

/-! ### Retirement -/

@[simp] theorem State.noteRetired_a (s : State) : (s.noteRetired).a = s.a := rfl
@[simp] theorem State.noteRetired_x (s : State) : (s.noteRetired).x = s.x := rfl
@[simp] theorem State.noteRetired_y (s : State) : (s.noteRetired).y = s.y := rfl
@[simp] theorem State.noteRetired_sp (s : State) : (s.noteRetired).sp = s.sp := rfl
@[simp] theorem State.noteRetired_p (s : State) : (s.noteRetired).p = s.p := rfl
@[simp] theorem State.noteRetired_pc (s : State) : (s.noteRetired).pc = s.pc := rfl
@[simp] theorem State.noteRetired_mem (s : State) : (s.noteRetired).mem = s.mem := rfl
@[simp] theorem State.noteRetired_lastExecuted (s : State) : (s.noteRetired).lastExecuted = s.lastExecuted := rfl
@[simp] theorem State.noteRetired_lastExtraCycles (s : State) : (s.noteRetired).lastExtraCycles = s.lastExtraCycles := rfl
@[simp] theorem State.noteRetired_lastWrite (s : State) : (s.noteRetired).lastWrite = s.lastWrite := rfl
@[simp] theorem State.noteRetired_obs (s : State) : (s.noteRetired).obs = { s.obs with resetPending := false } := rfl

/-! ### Reset mark -/

@[simp] theorem State.markReset_a (s : State) : (s.markReset).a = s.a := rfl
@[simp] theorem State.markReset_x (s : State) : (s.markReset).x = s.x := rfl
@[simp] theorem State.markReset_y (s : State) : (s.markReset).y = s.y := rfl
@[simp] theorem State.markReset_sp (s : State) : (s.markReset).sp = s.sp := rfl
@[simp] theorem State.markReset_p (s : State) : (s.markReset).p = s.p := rfl
@[simp] theorem State.markReset_pc (s : State) : (s.markReset).pc = s.pc := rfl
@[simp] theorem State.markReset_mem (s : State) : (s.markReset).mem = s.mem := rfl
@[simp] theorem State.markReset_lastExecuted (s : State) : (s.markReset).lastExecuted = s.lastExecuted := rfl
@[simp] theorem State.markReset_lastExtraCycles (s : State) : (s.markReset).lastExtraCycles = s.lastExtraCycles := rfl
@[simp] theorem State.markReset_lastWrite (s : State) : (s.markReset).lastWrite = s.lastWrite := rfl
@[simp] theorem State.markReset_obs (s : State) : (s.markReset).obs = { s.obs with resetPending := true } := rfl

/-! ### Vector -/

@[simp] theorem State.vectorReset_a (s : State) : (s.vectorReset).a = s.a := rfl
@[simp] theorem State.vectorReset_x (s : State) : (s.vectorReset).x = s.x := rfl
@[simp] theorem State.vectorReset_y (s : State) : (s.vectorReset).y = s.y := rfl
@[simp] theorem State.vectorReset_sp (s : State) : (s.vectorReset).sp = s.sp := rfl
@[simp] theorem State.vectorReset_p (s : State) : (s.vectorReset).p = s.p := rfl
@[simp] theorem State.vectorReset_pc (s : State) : (s.vectorReset).pc = s.loadWord Config.resetVector := rfl
@[simp] theorem State.vectorReset_mem (s : State) : (s.vectorReset).mem = s.mem := rfl
@[simp] theorem State.vectorReset_lastExecuted (s : State) : (s.vectorReset).lastExecuted = s.lastExecuted := rfl
@[simp] theorem State.vectorReset_lastExtraCycles (s : State) : (s.vectorReset).lastExtraCycles = s.lastExtraCycles := rfl
@[simp] theorem State.vectorReset_lastWrite (s : State) : (s.vectorReset).lastWrite = s.lastWrite := rfl
@[simp] theorem State.vectorReset_obs (s : State) : (s.vectorReset).obs = s.obs := rfl

/-! ### Observer: run state -/

@[simp] theorem State.setRun_a (r : RunState) (s : State) : (s.setRun r).a = s.a := rfl
@[simp] theorem State.setRun_x (r : RunState) (s : State) : (s.setRun r).x = s.x := rfl
@[simp] theorem State.setRun_y (r : RunState) (s : State) : (s.setRun r).y = s.y := rfl
@[simp] theorem State.setRun_sp (r : RunState) (s : State) : (s.setRun r).sp = s.sp := rfl
@[simp] theorem State.setRun_p (r : RunState) (s : State) : (s.setRun r).p = s.p := rfl
@[simp] theorem State.setRun_pc (r : RunState) (s : State) : (s.setRun r).pc = s.pc := rfl
@[simp] theorem State.setRun_mem (r : RunState) (s : State) : (s.setRun r).mem = s.mem := rfl
@[simp] theorem State.setRun_lastExecuted (r : RunState) (s : State) : (s.setRun r).lastExecuted = s.lastExecuted := rfl
@[simp] theorem State.setRun_lastExtraCycles (r : RunState) (s : State) : (s.setRun r).lastExtraCycles = s.lastExtraCycles := rfl
@[simp] theorem State.setRun_lastWrite (r : RunState) (s : State) : (s.setRun r).lastWrite = s.lastWrite := rfl
@[simp] theorem State.setRun_obs (r : RunState) (s : State) : (s.setRun r).obs = { s.obs with run := r } := rfl

/-! ### Observer: count -/

@[simp] theorem State.countRetired_a (s : State) : (s.countRetired).a = s.a := rfl
@[simp] theorem State.countRetired_x (s : State) : (s.countRetired).x = s.x := rfl
@[simp] theorem State.countRetired_y (s : State) : (s.countRetired).y = s.y := rfl
@[simp] theorem State.countRetired_sp (s : State) : (s.countRetired).sp = s.sp := rfl
@[simp] theorem State.countRetired_p (s : State) : (s.countRetired).p = s.p := rfl
@[simp] theorem State.countRetired_pc (s : State) : (s.countRetired).pc = s.pc := rfl
@[simp] theorem State.countRetired_mem (s : State) : (s.countRetired).mem = s.mem := rfl
@[simp] theorem State.countRetired_lastExecuted (s : State) : (s.countRetired).lastExecuted = s.lastExecuted := rfl
@[simp] theorem State.countRetired_lastExtraCycles (s : State) : (s.countRetired).lastExtraCycles = s.lastExtraCycles := rfl
@[simp] theorem State.countRetired_lastWrite (s : State) : (s.countRetired).lastWrite = s.lastWrite := rfl
@[simp] theorem State.countRetired_obs (s : State) : (s.countRetired).obs = { s.obs with retired := s.obs.retired + 1, resetPending := false } := rfl

/-! ### Observer: start -/

@[simp] theorem State.startRun_a (s : State) : (s.startRun).a = s.a := rfl
@[simp] theorem State.startRun_x (s : State) : (s.startRun).x = s.x := rfl
@[simp] theorem State.startRun_y (s : State) : (s.startRun).y = s.y := rfl
@[simp] theorem State.startRun_sp (s : State) : (s.startRun).sp = s.sp := rfl
@[simp] theorem State.startRun_p (s : State) : (s.startRun).p = s.p := rfl
@[simp] theorem State.startRun_pc (s : State) : (s.startRun).pc = s.pc := rfl
@[simp] theorem State.startRun_mem (s : State) : (s.startRun).mem = s.mem := rfl
@[simp] theorem State.startRun_lastExecuted (s : State) : (s.startRun).lastExecuted = s.lastExecuted := rfl
@[simp] theorem State.startRun_lastExtraCycles (s : State) : (s.startRun).lastExtraCycles = s.lastExtraCycles := rfl
@[simp] theorem State.startRun_lastWrite (s : State) : (s.startRun).lastWrite = s.lastWrite := rfl
@[simp] theorem State.startRun_obs (s : State) : (s.startRun).obs = { s.obs with run := .running, started := true, retired := 0 } := rfl

/-! ### Observer: registration -/

@[simp] theorem State.register_a (bp : Breakpoint) (s : State) : (s.register bp).a = s.a := rfl
@[simp] theorem State.register_x (bp : Breakpoint) (s : State) : (s.register bp).x = s.x := rfl
@[simp] theorem State.register_y (bp : Breakpoint) (s : State) : (s.register bp).y = s.y := rfl
@[simp] theorem State.register_sp (bp : Breakpoint) (s : State) : (s.register bp).sp = s.sp := rfl
@[simp] theorem State.register_p (bp : Breakpoint) (s : State) : (s.register bp).p = s.p := rfl
@[simp] theorem State.register_pc (bp : Breakpoint) (s : State) : (s.register bp).pc = s.pc := rfl
@[simp] theorem State.register_mem (bp : Breakpoint) (s : State) : (s.register bp).mem = s.mem := rfl
@[simp] theorem State.register_lastExecuted (bp : Breakpoint) (s : State) : (s.register bp).lastExecuted = s.lastExecuted := rfl
@[simp] theorem State.register_lastExtraCycles (bp : Breakpoint) (s : State) : (s.register bp).lastExtraCycles = s.lastExtraCycles := rfl
@[simp] theorem State.register_lastWrite (bp : Breakpoint) (s : State) : (s.register bp).lastWrite = s.lastWrite := rfl
@[simp] theorem State.register_obs (bp : Breakpoint) (s : State) : (s.register bp).obs = { s.obs with breakpoints := s.obs.breakpoints ++ [bp] } := rfl

/-! ### Observer: removal -/

@[simp] theorem State.unregister_a (n : Nat) (s : State) : (s.unregister n).a = s.a := rfl
@[simp] theorem State.unregister_x (n : Nat) (s : State) : (s.unregister n).x = s.x := rfl
@[simp] theorem State.unregister_y (n : Nat) (s : State) : (s.unregister n).y = s.y := rfl
@[simp] theorem State.unregister_sp (n : Nat) (s : State) : (s.unregister n).sp = s.sp := rfl
@[simp] theorem State.unregister_p (n : Nat) (s : State) : (s.unregister n).p = s.p := rfl
@[simp] theorem State.unregister_pc (n : Nat) (s : State) : (s.unregister n).pc = s.pc := rfl
@[simp] theorem State.unregister_mem (n : Nat) (s : State) : (s.unregister n).mem = s.mem := rfl
@[simp] theorem State.unregister_lastExecuted (n : Nat) (s : State) : (s.unregister n).lastExecuted = s.lastExecuted := rfl
@[simp] theorem State.unregister_lastExtraCycles (n : Nat) (s : State) : (s.unregister n).lastExtraCycles = s.lastExtraCycles := rfl
@[simp] theorem State.unregister_lastWrite (n : Nat) (s : State) : (s.unregister n).lastWrite = s.lastWrite := rfl
@[simp] theorem State.unregister_obs (n : Nat) (s : State) : (s.unregister n).obs = { s.obs with breakpoints := s.obs.breakpoints.eraseIdx n } := rfl

/-! ### Updates that leave every load or every flag as it is -/

@[simp] theorem State.setA_load (v : Byte) (addr : Word) (s : State) : (s.setA v).load addr = s.load addr := rfl
@[simp] theorem State.setX_load (v : Byte) (addr : Word) (s : State) : (s.setX v).load addr = s.load addr := rfl
@[simp] theorem State.setY_load (v : Byte) (addr : Word) (s : State) : (s.setY v).load addr = s.load addr := rfl
@[simp] theorem State.setSP_load (v : Byte) (addr : Word) (s : State) : (s.setSP v).load addr = s.load addr := rfl
@[simp] theorem State.setP_load (v : Byte) (addr : Word) (s : State) : (s.setP v).load addr = s.load addr := rfl
@[simp] theorem State.setPC_load (v : Word) (addr : Word) (s : State) : (s.setPC v).load addr = s.load addr := rfl
@[simp] theorem State.setFlag_load (f : Flag) (b : Bool) (addr : Word) (s : State) : (s.setFlag f b).load addr = s.load addr := rfl
@[simp] theorem State.setZN_load (v : Nat) (addr : Word) (s : State) : (s.setZN v).load addr = s.load addr := rfl
@[simp] theorem State.setV_load (r : Nat) (a : Byte) (b : Byte) (addr : Word) (s : State) : (s.setV r a b).load addr = s.load addr := rfl
@[simp] theorem State.afterPull_load (addr : Word) (s : State) : (s.afterPull).load addr = s.load addr := rfl
@[simp] theorem State.beginExecute_load (addr : Word) (s : State) : (s.beginExecute).load addr = s.load addr := rfl
@[simp] theorem State.record_load (i : Instr) (n : Nat) (addr : Word) (s : State) : (s.record i n).load addr = s.load addr := rfl
@[simp] theorem State.noteRetired_load (addr : Word) (s : State) : (s.noteRetired).load addr = s.load addr := rfl
@[simp] theorem State.markReset_load (addr : Word) (s : State) : (s.markReset).load addr = s.load addr := rfl
@[simp] theorem State.vectorReset_load (addr : Word) (s : State) : (s.vectorReset).load addr = s.load addr := rfl
@[simp] theorem State.setRun_load (r : RunState) (addr : Word) (s : State) : (s.setRun r).load addr = s.load addr := rfl
@[simp] theorem State.countRetired_load (addr : Word) (s : State) : (s.countRetired).load addr = s.load addr := rfl
@[simp] theorem State.startRun_load (addr : Word) (s : State) : (s.startRun).load addr = s.load addr := rfl
@[simp] theorem State.register_load (bp : Breakpoint) (addr : Word) (s : State) : (s.register bp).load addr = s.load addr := rfl
@[simp] theorem State.unregister_load (n : Nat) (addr : Word) (s : State) : (s.unregister n).load addr = s.load addr := rfl

@[simp] theorem State.setA_flag (v : Byte) (g : Flag) (s : State) : (s.setA v).flag g = s.flag g := rfl
@[simp] theorem State.setX_flag (v : Byte) (g : Flag) (s : State) : (s.setX v).flag g = s.flag g := rfl
@[simp] theorem State.setY_flag (v : Byte) (g : Flag) (s : State) : (s.setY v).flag g = s.flag g := rfl
@[simp] theorem State.setSP_flag (v : Byte) (g : Flag) (s : State) : (s.setSP v).flag g = s.flag g := rfl
@[simp] theorem State.setPC_flag (v : Word) (g : Flag) (s : State) : (s.setPC v).flag g = s.flag g := rfl
@[simp] theorem State.afterPull_flag (g : Flag) (s : State) : (s.afterPull).flag g = s.flag g := rfl
@[simp] theorem State.beginExecute_flag (g : Flag) (s : State) : (s.beginExecute).flag g = s.flag g := rfl
@[simp] theorem State.record_flag (i : Instr) (n : Nat) (g : Flag) (s : State) : (s.record i n).flag g = s.flag g := rfl
@[simp] theorem State.noteRetired_flag (g : Flag) (s : State) : (s.noteRetired).flag g = s.flag g := rfl
@[simp] theorem State.markReset_flag (g : Flag) (s : State) : (s.markReset).flag g = s.flag g := rfl
@[simp] theorem State.vectorReset_flag (g : Flag) (s : State) : (s.vectorReset).flag g = s.flag g := rfl
@[simp] theorem State.setRun_flag (r : RunState) (g : Flag) (s : State) : (s.setRun r).flag g = s.flag g := rfl
@[simp] theorem State.countRetired_flag (g : Flag) (s : State) : (s.countRetired).flag g = s.flag g := rfl
@[simp] theorem State.startRun_flag (g : Flag) (s : State) : (s.startRun).flag g = s.flag g := rfl
@[simp] theorem State.register_flag (bp : Breakpoint) (g : Flag) (s : State) : (s.register bp).flag g = s.flag g := rfl
@[simp] theorem State.unregister_flag (n : Nat) (g : Flag) (s : State) : (s.unregister n).flag g = s.flag g := rfl
@[simp] theorem State.poke_flag (addr : Word) (v : Byte) (g : Flag) (s : State) : (s.poke addr v).flag g = s.flag g := rfl
@[simp] theorem State.store_flag (addr : Word) (v : Byte) (g : Flag) (s : State) : (s.store addr v).flag g = s.flag g := rfl
@[simp] theorem State.push_flag (v : Byte) (g : Flag) (s : State) : (s.push v).flag g = s.flag g := rfl

end Sys2Proof.Machine
end

