-- ==== Sys2Proof/Laws/Flags.lean ====
section
/-! SUPPORT. The flag algebra: what each flag is after a flag update, and that the other flags are as before. -/

namespace Sys2Proof.Machine

/-- Reading a flag after a flag write (R91): the written flag has the new bit, the others are as before. -/
@[simp] theorem flagOf_withFlag (g f : Flag) (b : Bool) (p : Byte) :
    flagOf g (withFlag f b p) = if g = f then b else flagOf g p := by
  cases f <;> cases g <;> cases b <;>
    simp [flagOf, withFlag, flagMask, flagBit, bitValue]

/-- Two values of `P` with equal flags are equal. -/
theorem eq_of_flags {p q : Byte} (h : ∀ f, flagOf f p = flagOf f q) : p = q := by
  apply BitVec.eq_of_getLsbD_eq
  intro i hi
  match i, hi with
  | 0, _ => exact h .carry
  | 1, _ => exact h .zero
  | 2, _ => exact h .interruptDisable
  | 3, _ => exact h .decimalMode
  | 4, _ => exact h .breakCommand
  | 5, _ => exact h .unused
  | 6, _ => exact h .overflow
  | 7, _ => exact h .negative

theorem State.flag_eq (f : Flag) (s : State) : s.flag f = flagOf f s.p := rfl

@[simp] theorem State.setP_flag (v : Byte) (g : Flag) (s : State) : (s.setP v).flag g = flagOf g v := rfl

@[simp] theorem State.setFlag_flag (f : Flag) (b : Bool) (g : Flag) (s : State) :
    (s.setFlag f b).flag g = if g = f then b else s.flag g :=
  flagOf_withFlag g f b s.p

/-- Every flag after `SetZN(v)` (R97, R98). -/
@[simp] theorem State.setZN_flag (v : Nat) (g : Flag) (s : State) :
    (s.setZN v).flag g =
      if g = .negative then bitValue 7 (toByte v) else if g = .zero then toByte v == 0#8 else s.flag g := by
  simp [State.flag_eq, withZN, withNegative, withZero]

/-- Every flag after `SetV(result, a, b)` (R99). -/
@[simp] theorem State.setV_flag (r : Nat) (a b : Byte) (g : Flag) (s : State) :
    (s.setV r a b).flag g = if g = .overflow then overflows r a b else s.flag g := by
  simp [State.flag_eq, withOverflow]

@[simp] theorem toByte_toNat (b : Byte) : toByte b.toNat = b := by
  simp [toByte]

/-- Bit 7 of a byte is set from 0x80 up. -/
theorem bitValue_seven (b : Byte) : bitValue 7 b = true ↔ 0x80 ≤ b.toNat := by
  have h : bitValue 7 b = b.msb := by simp [bitValue, BitVec.msb_eq_getLsbD_last]
  rw [h, BitVec.msb_eq_decide]
  simp

end Sys2Proof.Machine
end

