-- ==== Sys2Proof/Laws/Memory.lean ====
section
/-! SUPPORT. Memory: reads after writes, the canonical form kept by every write, equal reads of canonical memories make equal
memories, and the mirroring transform. -/

namespace Sys2Proof.Machine

/-! ### Reads and writes of cells -/

theorem Memory.read_cons (k' : Nat) (v : Byte) (m : List Host.Cell) (k : Nat) :
    Memory.read ((k', v) :: m) k = if k' = k then v else Memory.read m k := rfl

theorem Memory.read_put_same {k : Nat} {v : Byte} {m : List Host.Cell} (h : Memory.read m k = Memory.unlisted) :
    Memory.read (Memory.put k v m) k = v := by
  unfold Memory.put
  split
  · simp_all
  · simp [Memory.read_cons]

theorem Memory.read_put_other {k j : Nat} (v : Byte) (m : List Host.Cell) (h : k ≠ j) :
    Memory.read (Memory.put k v m) j = Memory.read m j := by
  unfold Memory.put
  split
  · rfl
  · simp [Memory.read_cons, h]

/-- A cell below every listed key reads as an unlisted one. -/
theorem Memory.read_of_lt {m : List Host.Cell} {k : Nat} (h : ∀ c ∈ m, k < c.1) : Memory.read m k = Memory.unlisted := by
  induction m with
  | nil => rfl
  | cons c m ih =>
    obtain ⟨k', v⟩ := c
    have hk : k < k' := h _ List.mem_cons_self
    rw [Memory.read_cons, if_neg (by omega), ih fun d hd => h d (List.mem_cons_of_mem _ hd)]

/-- A write leaves every other cell alone. -/
theorem Memory.read_write_other {k j : Nat} (h : k ≠ j) (v : Byte) (m : List Host.Cell) :
    Memory.read (Memory.write m k v) j = Memory.read m j := by
  induction m with
  | nil => exact Memory.read_put_other v [] h
  | cons c m ih =>
    obtain ⟨k', v'⟩ := c
    unfold Memory.write
    split
    · exact Memory.read_put_other v _ h
    · split
      · rename_i hk
        rw [Memory.read_put_other v m h, Memory.read_cons, if_neg (by omega)]
      · rw [Memory.read_cons, Memory.read_cons, ih]

/-- A read after a write to the same cell gives the byte written. -/
theorem Memory.read_write_same {m : List Host.Cell} (hm : Memory.wf m) (k : Nat) (v : Byte) :
    Memory.read (Memory.write m k v) k = v := by
  induction m with
  | nil => exact Memory.read_put_same rfl
  | cons c m ih =>
    obtain ⟨k', v'⟩ := c
    obtain ⟨hp, hc⟩ := hm
    rw [List.pairwise_cons] at hp
    unfold Memory.write
    split
    · rename_i hk
      refine Memory.read_put_same (Memory.read_of_lt fun d hd => ?_)
      rcases List.mem_cons.1 hd with rfl | hd
      · exact hk
      · exact Nat.lt_trans hk (hp.1 d hd)
    · split
      · rename_i hk
        exact Memory.read_put_same (Memory.read_of_lt fun d hd => by have := hp.1 d hd; simp only at this; omega)
      · rename_i hk
        rw [Memory.read_cons, if_neg (by omega)]
        exact ih ⟨hp.2, fun d hd => hc d (List.mem_cons_of_mem _ hd)⟩

/-! ### The canonical form -/

theorem Memory.wf_nil : Memory.wf [] := by simp [Memory.wf]

theorem Memory.wf_tail {c : Host.Cell} {m : List Host.Cell} (h : Memory.wf (c :: m)) : Memory.wf m :=
  ⟨(List.pairwise_cons.1 h.1).2, fun d hd => h.2 d (List.mem_cons_of_mem _ hd)⟩

theorem Memory.wf_put {k : Nat} {v : Byte} {m : List Host.Cell} (hm : Memory.wf m) (hk : Memory.isCell k = true)
    (hlt : ∀ c ∈ m, k < c.1) : Memory.wf (Memory.put k v m) := by
  unfold Memory.put
  split
  · exact hm
  · rename_i hv
    refine ⟨List.pairwise_cons.2 ⟨hlt, hm.1⟩, fun c hc => ?_⟩
    rcases List.mem_cons.1 hc with rfl | hc
    · exact ⟨hk, hv⟩
    · exact hm.2 c hc

/-- The keys of a memory after a write: the old ones and the one written. -/
theorem Memory.mem_write {m : List Host.Cell} {k : Nat} {v : Byte} {c : Host.Cell} (h : c ∈ Memory.write m k v) :
    c ∈ m ∨ c.1 = k := by
  have hput : ∀ {n : List Host.Cell}, c ∈ Memory.put k v n → c ∈ n ∨ c.1 = k := by
    intro n hc
    unfold Memory.put at hc
    split at hc
    · exact .inl hc
    · rcases List.mem_cons.1 hc with rfl | hc
      · exact .inr rfl
      · exact .inl hc
  induction m with
  | nil => exact hput h
  | cons d m ih =>
    obtain ⟨k', v'⟩ := d
    unfold Memory.write at h
    split at h
    · exact hput h
    · split at h
      · exact (hput h).imp_left (List.mem_cons_of_mem _)
      · rcases List.mem_cons.1 h with rfl | h
        · exact .inl List.mem_cons_self
        · exact (ih h).imp_left (List.mem_cons_of_mem _)

/-- Every write to a backing cell keeps the canonical form. -/
theorem Memory.wf_write {m : List Host.Cell} (hm : Memory.wf m) {k : Nat} (hk : Memory.isCell k = true) (v : Byte) :
    Memory.wf (Memory.write m k v) := by
  induction m with
  | nil => exact Memory.wf_put Memory.wf_nil hk (by simp)
  | cons c m ih =>
    obtain ⟨k', v'⟩ := c
    have hp := List.pairwise_cons.1 hm.1
    unfold Memory.write
    split
    · rename_i hlt
      refine Memory.wf_put hm hk fun d hd => ?_
      rcases List.mem_cons.1 hd with rfl | hd
      · exact hlt
      · exact Nat.lt_trans hlt (hp.1 d hd)
    · split
      · rename_i hne heq
        exact Memory.wf_put (Memory.wf_tail hm) hk fun d hd => by have := hp.1 d hd; simp only at this; omega
      · rename_i hnlt hne
        have ih' := ih (Memory.wf_tail hm)
        refine ⟨List.pairwise_cons.2 ⟨fun d hd => ?_, ih'.1⟩, fun d hd => ?_⟩
        · rcases Memory.mem_write hd with hd | hd
          · exact hp.1 d hd
          · simp only [hd]; omega
        · rcases List.mem_cons.1 hd with rfl | hd
          · exact hm.2 _ List.mem_cons_self
          · exact ih'.2 d hd

/-- Two canonical memories with equal reads are equal. -/
theorem Memory.ext_read {m n : List Host.Cell} (hm : Memory.wf m) (hn : Memory.wf n)
    (h : ∀ k, Memory.read m k = Memory.read n k) : m = n := by
  have below : ∀ {k' : Nat} {v' : Byte} {l l' : List Host.Cell}, Memory.wf ((k', v') :: l) →
      (∀ c ∈ l', k' < c.1) → Memory.read ((k', v') :: l) k' = Memory.read l' k' → False := by
    intro k' v' l l' hl hlt he
    rw [Memory.read_cons, if_pos rfl, Memory.read_of_lt hlt] at he
    exact (hl.2 _ List.mem_cons_self).2 he
  induction m generalizing n with
  | nil =>
    cases n with
    | nil => rfl
    | cons d n => exact (below hn (by simp) (h d.1).symm).elim
  | cons c m ih =>
    cases n with
    | nil => exact (below hm (by simp) (h c.1)).elim
    | cons d n =>
      obtain ⟨k, v⟩ := c
      obtain ⟨j, w⟩ := d
      have hpm := (List.pairwise_cons.1 hm.1).1
      have hpn := (List.pairwise_cons.1 hn.1).1
      rcases Nat.lt_trichotomy k j with hlt | rfl | hlt
      · refine (below hm (fun e he => ?_) (h k)).elim
        rcases List.mem_cons.1 he with rfl | he
        · exact hlt
        · exact Nat.lt_trans hlt (hpn e he)
      · have hv := h k
        rw [Memory.read_cons, Memory.read_cons, if_pos rfl, if_pos rfl] at hv
        have ht : m = n := ih (Memory.wf_tail hm) (Memory.wf_tail hn) fun i => by
          have hi := h i
          rw [Memory.read_cons, Memory.read_cons] at hi
          split at hi
          · rename_i hki
            subst hki
            rw [Memory.read_of_lt hpm, Memory.read_of_lt hpn]
          · exact hi
        rw [hv, ht]
      · refine (below hn (fun e he => ?_) (h j).symm).elim
        rcases List.mem_cons.1 he with rfl | he
        · exact hlt
        · exact Nat.lt_trans hlt (hpm e he)

/-! ### The mirroring transform -/

theorem cellOf_ram {addr : Word} (h : addr.toNat < 0x2000) : cellOf addr = addr.toNat % 0x800 := by
  simp [cellOf, Config.ppuBase, Config.ramSize, h]

theorem cellOf_ppu {addr : Word} (h : 0x2000 ≤ addr.toNat) (h' : addr.toNat < 0x4000) :
    cellOf addr = 0x2000 + addr.toNat % 8 := by
  have : ¬ addr.toNat < 0x2000 := by omega
  simp [cellOf, Config.ppuBase, Config.ppuSize, Config.unmirroredBase, h', this]

theorem cellOf_own {addr : Word} (h : 0x4000 ≤ addr.toNat) : cellOf addr = addr.toNat := by
  have h1 : ¬ addr.toNat < 0x2000 := by omega
  have h2 : ¬ addr.toNat < 0x4000 := by omega
  simp [cellOf, Config.ppuBase, Config.unmirroredBase, h1, h2]

/-- From 0x4000 up an address shares its cell with no other. -/
theorem cellOf_eq_own_iff {addr own : Word} (h : 0x4000 ≤ own.toNat) : cellOf addr = cellOf own ↔ addr = own := by
  refine ⟨fun he => ?_, fun he => he ▸ rfl⟩
  rw [cellOf_own h] at he
  rcases Nat.lt_or_ge addr.toNat 0x2000 with h' | h'
  · rw [cellOf_ram h'] at he; omega
  · rcases Nat.lt_or_ge addr.toNat 0x4000 with h'' | h''
    · rw [cellOf_ppu h' h''] at he; omega
    · rw [cellOf_own h''] at he
      exact BitVec.eq_of_toNat_eq he

/-- An address and its successor have different cells. -/
theorem cellOf_succ_ne (addr : Word) : cellOf addr ≠ cellOf (addr + 1#16) := by
  have hlt := addr.isLt
  have h1 : (addr + 1#16).toNat = (addr.toNat + 1) % 65536 := by simp
  unfold cellOf
  rw [h1]
  simp only [Config.ppuBase, Config.ramSize, Config.unmirroredBase, Config.ppuSize]
  split <;> split <;> (try split) <;> (try split) <;> omega

/-- Every address has a backing cell. -/
theorem isCell_cellOf (addr : Word) : Memory.isCell (cellOf addr) = true := by
  have hlt := addr.isLt
  have h3 : (0x4000 ≤ addr.toNat ∧ cellOf addr = addr.toNat) ∨ (0x2000 ≤ cellOf addr ∧ cellOf addr < 0x2008) ∨
      cellOf addr < 0x800 := by
    rcases Nat.lt_or_ge addr.toNat 0x2000 with h | h
    · rw [cellOf_ram h]; omega
    · rcases Nat.lt_or_ge addr.toNat 0x4000 with h' | h'
      · rw [cellOf_ppu h h']; omega
      · exact .inl ⟨h', cellOf_own h'⟩
  simp [Memory.isCell, Config.ramSize, Config.ppuBase, Config.ppuSize, Config.unmirroredBase, Config.addressCount]
  omega

/-! ### Loads and stores of the state -/

theorem State.load_eq (addr : Word) (s : State) : s.load addr = Memory.read s.mem (cellOf addr) := rfl

/-- A load depends on the memory alone. -/
theorem State.load_congr {s t : State} (h : s.mem = t.mem) (addr : Word) : s.load addr = t.load addr := by
  rw [State.load_eq, State.load_eq, h]

/-- A load of any alias of the cell stored to gives the byte stored (R48). -/
theorem State.load_store_same {s : State} (hm : Memory.wf s.mem) {addr mirror : Word} (h : cellOf mirror = cellOf addr)
    (v : Byte) : (s.store addr v).load mirror = v := by
  rw [State.load_eq, State.store_mem, h]
  exact Memory.read_write_same hm _ _

/-- A store leaves every byte that is no alias of the address as it is. -/
theorem State.load_store_other {addr other : Word} (h : cellOf other ≠ cellOf addr) (v : Byte) (s : State) :
    (s.store addr v).load other = s.load other := by
  rw [State.load_eq, State.load_eq, State.store_mem]
  exact Memory.read_write_other (Ne.symm h) _ _

theorem State.wf_store {s : State} (hm : Memory.wf s.mem) (addr : Word) (v : Byte) : Memory.wf (s.store addr v).mem :=
  Memory.wf_write hm (isCell_cellOf addr) v

theorem State.wf_poke {s : State} (hm : Memory.wf s.mem) (addr : Word) (v : Byte) : Memory.wf (s.poke addr v).mem :=
  Memory.wf_write hm (isCell_cellOf addr) v

theorem State.wf_push {s : State} (hm : Memory.wf s.mem) (v : Byte) : Memory.wf (s.push v).mem :=
  Memory.wf_write hm (isCell_cellOf _) v

/-! ### Stack addresses -/

theorem stackAddr_toNat (sp : Byte) : (stackAddr sp).toNat = 0x100 + sp.toNat := by
  have := sp.isLt
  simp only [stackAddr, zeroExtend, Config.stackBase, BitVec.toNat_add, BitVec.toNat_setWidth, BitVec.toNat_ofNat]
  omega

theorem cellOf_stackAddr (sp : Byte) : cellOf (stackAddr sp) = 0x100 + sp.toNat := by
  have := sp.isLt
  rw [cellOf_ram (by rw [stackAddr_toNat]; omega), stackAddr_toNat]
  omega

/-- Two stack slots share a cell only if they are the same slot. -/
theorem cellOf_stackAddr_inj {a b : Byte} (h : cellOf (stackAddr a) = cellOf (stackAddr b)) : a = b := by
  rw [cellOf_stackAddr, cellOf_stackAddr] at h
  exact BitVec.eq_of_toNat_eq (by omega)

/-- The stack is RAM, so no address from 0x4000 up shares a cell with it. -/
theorem cellOf_ne_stackAddr {addr : Word} (h : 0x4000 ≤ addr.toNat) (sp : Byte) : cellOf addr ≠ cellOf (stackAddr sp) := by
  have := sp.isLt
  rw [cellOf_own h, cellOf_stackAddr]
  omega

end Sys2Proof.Machine
end

