-- ==== Sys2Proof/Laws/Exec.lean ====
section
/-! SUPPORT. One lemma per mnemonic: what `exec` is for all its forms at once, in terms of the operand byte, the operand word
and the store address of the instruction. A proof about a mnemonic cites its lemma and needs no case split over `Instr`. -/

namespace Sys2Proof.Machine

@[simp] theorem lowByte_byteOperand (d : Byte) : lowByte (byteOperand d) = d := by
  apply BitVec.eq_of_toNat_eq
  have := d.isLt
  simp [lowByte, byteOperand, zeroExtend]
  omega

/-- What `exec` is for a read-modify-write: on `A`, or on the byte at the store address. -/
def modifyEffect (i : Instr) (op : Byte → State → Byte × State) (s : State) : State :=
  match storeAddress i s with
  | none => modifyAccumulator op s
  | some addr =>
    let r := op (s.load addr) s
    r.2.store addr r.1

/-- What `exec` is for an instruction that reads its operand byte. -/
def readEffect (i : Instr) (op : Byte → State → State) (s : State) : State :=
  op (operandByte i s) s

/-- What `exec` is for a store of a register. -/
def storeEffect (i : Instr) (value : State → Byte) (s : State) : State :=
  match storeAddress i s with
  | none => s
  | some addr => s.store addr (value s)

/-- The target of a jump: the pointer of the Indirect form, otherwise the operand (R219). -/
def jumpTarget (i : Instr) (s : State) : Word :=
  match i.format with
  | .mode .ind => eaIndirect (operandWord i) s
  | .mode .acc | .mode .imm | .mode .rel | .mode (.mem _) | .implied => operandWord i

/-- `exec` by mnemonic. -/
def execByMnemonic (i : Instr) (s : State) : Host.Outcome State Fault Refusal :=
  match i.mnemonic with
  | .adc => runPlain i (readEffect i adc) s
  | .sbc => runPlain i (readEffect i sbc) s
  | .and => runPlain i (readEffect i andA) s
  | .ora => runPlain i (readEffect i oraA) s
  | .eor => runPlain i (readEffect i eorA) s
  | .cmp => runPlain i (readEffect i cmpA) s
  | .cpx => runPlain i (readEffect i cpxX) s
  | .cpy => runPlain i (readEffect i cpyY) s
  | .bit => runPlain i (readEffect i bitTest) s
  | .asl => runPlain i (modifyEffect i asl) s
  | .lsr => runPlain i (modifyEffect i lsr) s
  | .rol => runPlain i (modifyEffect i rol) s
  | .ror => runPlain i (modifyEffect i ror) s
  | .inc => runPlain i (modifyEffect i inc) s
  | .dec => runPlain i (modifyEffect i dec) s
  | .inx => runPlain i (fun t => countX (t.x + 1#8) t) s
  | .iny => runPlain i (fun t => countY (t.y + 1#8) t) s
  | .dex => runPlain i (fun t => countX (t.x - 1#8) t) s
  | .dey => runPlain i (fun t => countY (t.y - 1#8) t) s
  | .lda => runPlain i (readEffect i toA) s
  | .ldx => runPlain i (readEffect i toX) s
  | .ldy => runPlain i (readEffect i toY) s
  | .sta => runPlain i (storeEffect i State.a) s
  | .stx => runPlain i (storeEffect i State.x) s
  | .sty => runPlain i (storeEffect i State.y) s
  | .tax => runPlain i (fun t => toX t.a t) s
  | .tay => runPlain i (fun t => toY t.a t) s
  | .txa => runPlain i (fun t => toA t.x t) s
  | .tya => runPlain i (fun t => toA t.y t) s
  | .tsx => runPlain i (fun t => toX t.sp t) s
  | .txs => runPlain i (fun t => t.setSP t.x) s
  | .bcc => runBranch i .carry false (operandWord i) s
  | .bcs => runBranch i .carry true (operandWord i) s
  | .beq => runBranch i .zero true (operandWord i) s
  | .bne => runBranch i .zero false (operandWord i) s
  | .bmi => runBranch i .negative true (operandWord i) s
  | .bpl => runBranch i .negative false (operandWord i) s
  | .bvc => runBranch i .overflow false (operandWord i) s
  | .bvs => runBranch i .overflow true (operandWord i) s
  | .jmp => runJump i (fun t => t.setPC (jumpTarget i t)) s
  | .jsr => runJump i (callSubroutine (operandWord i)) s
  | .rts => runJump i returnFromSubroutine s
  | .pha => runPlain i (fun t => t.push t.a) s
  | .php => runPlain i (fun t => t.push t.p) s
  | .pla => runPlain i (pullA) s
  | .plp => runPlain i (pullP) s
  | .clc => runPlain i (State.setFlag .carry false) s
  | .sec => runPlain i (State.setFlag .carry true) s
  | .cli => runPlain i (State.setFlag .interruptDisable false) s
  | .sei => runPlain i (State.setFlag .interruptDisable true) s
  | .cld => runPlain i (State.setFlag .decimalMode false) s
  | .sed => runPlain i (State.setFlag .decimalMode true) s
  | .clv => runPlain i (State.setFlag .overflow false) s
  | .nop => runPlain i (fun t => t) s
  | .brk => runJump i State.trapEntry s
  | .rti => runJump i State.trapReturn s

/-- The dispatcher agrees with the mnemonic's meaning on every form. -/
theorem exec_eq_execByMnemonic (i : Instr) (s : State) : exec i s = execByMnemonic i s := by
  cases i <;> rfl

/-! ### 43: arithmetic, logic and compare -/

theorem exec_adc {i : Instr} (h : i.mnemonic = .adc) (s : State) :
    exec i s = runPlain i (readEffect i adc) s := by
  rw [exec_eq_execByMnemonic, execByMnemonic, h]

theorem exec_sbc {i : Instr} (h : i.mnemonic = .sbc) (s : State) :
    exec i s = runPlain i (readEffect i sbc) s := by
  rw [exec_eq_execByMnemonic, execByMnemonic, h]

theorem exec_and {i : Instr} (h : i.mnemonic = .and) (s : State) :
    exec i s = runPlain i (readEffect i andA) s := by
  rw [exec_eq_execByMnemonic, execByMnemonic, h]

theorem exec_ora {i : Instr} (h : i.mnemonic = .ora) (s : State) :
    exec i s = runPlain i (readEffect i oraA) s := by
  rw [exec_eq_execByMnemonic, execByMnemonic, h]

theorem exec_eor {i : Instr} (h : i.mnemonic = .eor) (s : State) :
    exec i s = runPlain i (readEffect i eorA) s := by
  rw [exec_eq_execByMnemonic, execByMnemonic, h]

theorem exec_cmp {i : Instr} (h : i.mnemonic = .cmp) (s : State) :
    exec i s = runPlain i (readEffect i cmpA) s := by
  rw [exec_eq_execByMnemonic, execByMnemonic, h]

theorem exec_cpx {i : Instr} (h : i.mnemonic = .cpx) (s : State) :
    exec i s = runPlain i (readEffect i cpxX) s := by
  rw [exec_eq_execByMnemonic, execByMnemonic, h]

theorem exec_cpy {i : Instr} (h : i.mnemonic = .cpy) (s : State) :
    exec i s = runPlain i (readEffect i cpyY) s := by
  rw [exec_eq_execByMnemonic, execByMnemonic, h]

theorem exec_bit {i : Instr} (h : i.mnemonic = .bit) (s : State) :
    exec i s = runPlain i (readEffect i bitTest) s := by
  rw [exec_eq_execByMnemonic, execByMnemonic, h]

/-! ### 44: shift, rotate, increment and decrement -/

theorem exec_asl {i : Instr} (h : i.mnemonic = .asl) (s : State) :
    exec i s = runPlain i (modifyEffect i asl) s := by
  rw [exec_eq_execByMnemonic, execByMnemonic, h]

theorem exec_lsr {i : Instr} (h : i.mnemonic = .lsr) (s : State) :
    exec i s = runPlain i (modifyEffect i lsr) s := by
  rw [exec_eq_execByMnemonic, execByMnemonic, h]

theorem exec_rol {i : Instr} (h : i.mnemonic = .rol) (s : State) :
    exec i s = runPlain i (modifyEffect i rol) s := by
  rw [exec_eq_execByMnemonic, execByMnemonic, h]

theorem exec_ror {i : Instr} (h : i.mnemonic = .ror) (s : State) :
    exec i s = runPlain i (modifyEffect i ror) s := by
  rw [exec_eq_execByMnemonic, execByMnemonic, h]

theorem exec_inc {i : Instr} (h : i.mnemonic = .inc) (s : State) :
    exec i s = runPlain i (modifyEffect i inc) s := by
  rw [exec_eq_execByMnemonic, execByMnemonic, h]

theorem exec_dec {i : Instr} (h : i.mnemonic = .dec) (s : State) :
    exec i s = runPlain i (modifyEffect i dec) s := by
  rw [exec_eq_execByMnemonic, execByMnemonic, h]

theorem exec_inx {i : Instr} (h : i.mnemonic = .inx) (s : State) :
    exec i s = runPlain i (fun t => countX (t.x + 1#8) t) s := by
  rw [exec_eq_execByMnemonic, execByMnemonic, h]

theorem exec_iny {i : Instr} (h : i.mnemonic = .iny) (s : State) :
    exec i s = runPlain i (fun t => countY (t.y + 1#8) t) s := by
  rw [exec_eq_execByMnemonic, execByMnemonic, h]

theorem exec_dex {i : Instr} (h : i.mnemonic = .dex) (s : State) :
    exec i s = runPlain i (fun t => countX (t.x - 1#8) t) s := by
  rw [exec_eq_execByMnemonic, execByMnemonic, h]

theorem exec_dey {i : Instr} (h : i.mnemonic = .dey) (s : State) :
    exec i s = runPlain i (fun t => countY (t.y - 1#8) t) s := by
  rw [exec_eq_execByMnemonic, execByMnemonic, h]

/-! ### 45: load, store and transfer -/

theorem exec_lda {i : Instr} (h : i.mnemonic = .lda) (s : State) :
    exec i s = runPlain i (readEffect i toA) s := by
  rw [exec_eq_execByMnemonic, execByMnemonic, h]

theorem exec_ldx {i : Instr} (h : i.mnemonic = .ldx) (s : State) :
    exec i s = runPlain i (readEffect i toX) s := by
  rw [exec_eq_execByMnemonic, execByMnemonic, h]

theorem exec_ldy {i : Instr} (h : i.mnemonic = .ldy) (s : State) :
    exec i s = runPlain i (readEffect i toY) s := by
  rw [exec_eq_execByMnemonic, execByMnemonic, h]

theorem exec_sta {i : Instr} (h : i.mnemonic = .sta) (s : State) :
    exec i s = runPlain i (storeEffect i State.a) s := by
  rw [exec_eq_execByMnemonic, execByMnemonic, h]

theorem exec_stx {i : Instr} (h : i.mnemonic = .stx) (s : State) :
    exec i s = runPlain i (storeEffect i State.x) s := by
  rw [exec_eq_execByMnemonic, execByMnemonic, h]

theorem exec_sty {i : Instr} (h : i.mnemonic = .sty) (s : State) :
    exec i s = runPlain i (storeEffect i State.y) s := by
  rw [exec_eq_execByMnemonic, execByMnemonic, h]

theorem exec_tax {i : Instr} (h : i.mnemonic = .tax) (s : State) :
    exec i s = runPlain i (fun t => toX t.a t) s := by
  rw [exec_eq_execByMnemonic, execByMnemonic, h]

theorem exec_tay {i : Instr} (h : i.mnemonic = .tay) (s : State) :
    exec i s = runPlain i (fun t => toY t.a t) s := by
  rw [exec_eq_execByMnemonic, execByMnemonic, h]

theorem exec_txa {i : Instr} (h : i.mnemonic = .txa) (s : State) :
    exec i s = runPlain i (fun t => toA t.x t) s := by
  rw [exec_eq_execByMnemonic, execByMnemonic, h]

theorem exec_tya {i : Instr} (h : i.mnemonic = .tya) (s : State) :
    exec i s = runPlain i (fun t => toA t.y t) s := by
  rw [exec_eq_execByMnemonic, execByMnemonic, h]

theorem exec_tsx {i : Instr} (h : i.mnemonic = .tsx) (s : State) :
    exec i s = runPlain i (fun t => toX t.sp t) s := by
  rw [exec_eq_execByMnemonic, execByMnemonic, h]

theorem exec_txs {i : Instr} (h : i.mnemonic = .txs) (s : State) :
    exec i s = runPlain i (fun t => t.setSP t.x) s := by
  rw [exec_eq_execByMnemonic, execByMnemonic, h]

/-! ### 46: branch, jump and subroutine -/

theorem exec_bcc {i : Instr} (h : i.mnemonic = .bcc) (s : State) :
    exec i s = runBranch i .carry false (operandWord i) s := by
  rw [exec_eq_execByMnemonic, execByMnemonic, h]

theorem exec_bcs {i : Instr} (h : i.mnemonic = .bcs) (s : State) :
    exec i s = runBranch i .carry true (operandWord i) s := by
  rw [exec_eq_execByMnemonic, execByMnemonic, h]

theorem exec_beq {i : Instr} (h : i.mnemonic = .beq) (s : State) :
    exec i s = runBranch i .zero true (operandWord i) s := by
  rw [exec_eq_execByMnemonic, execByMnemonic, h]

theorem exec_bne {i : Instr} (h : i.mnemonic = .bne) (s : State) :
    exec i s = runBranch i .zero false (operandWord i) s := by
  rw [exec_eq_execByMnemonic, execByMnemonic, h]

theorem exec_bmi {i : Instr} (h : i.mnemonic = .bmi) (s : State) :
    exec i s = runBranch i .negative true (operandWord i) s := by
  rw [exec_eq_execByMnemonic, execByMnemonic, h]

theorem exec_bpl {i : Instr} (h : i.mnemonic = .bpl) (s : State) :
    exec i s = runBranch i .negative false (operandWord i) s := by
  rw [exec_eq_execByMnemonic, execByMnemonic, h]

theorem exec_bvc {i : Instr} (h : i.mnemonic = .bvc) (s : State) :
    exec i s = runBranch i .overflow false (operandWord i) s := by
  rw [exec_eq_execByMnemonic, execByMnemonic, h]

theorem exec_bvs {i : Instr} (h : i.mnemonic = .bvs) (s : State) :
    exec i s = runBranch i .overflow true (operandWord i) s := by
  rw [exec_eq_execByMnemonic, execByMnemonic, h]

theorem exec_jmp {i : Instr} (h : i.mnemonic = .jmp) (s : State) :
    exec i s = runJump i (fun t => t.setPC (jumpTarget i t)) s := by
  rw [exec_eq_execByMnemonic, execByMnemonic, h]

theorem exec_jsr {i : Instr} (h : i.mnemonic = .jsr) (s : State) :
    exec i s = runJump i (callSubroutine (operandWord i)) s := by
  rw [exec_eq_execByMnemonic, execByMnemonic, h]

theorem exec_rts {i : Instr} (h : i.mnemonic = .rts) (s : State) :
    exec i s = runJump i returnFromSubroutine s := by
  rw [exec_eq_execByMnemonic, execByMnemonic, h]

/-! ### 47: stack, flag and system -/

theorem exec_pha {i : Instr} (h : i.mnemonic = .pha) (s : State) :
    exec i s = runPlain i (fun t => t.push t.a) s := by
  rw [exec_eq_execByMnemonic, execByMnemonic, h]

theorem exec_php {i : Instr} (h : i.mnemonic = .php) (s : State) :
    exec i s = runPlain i (fun t => t.push t.p) s := by
  rw [exec_eq_execByMnemonic, execByMnemonic, h]

theorem exec_pla {i : Instr} (h : i.mnemonic = .pla) (s : State) :
    exec i s = runPlain i (pullA) s := by
  rw [exec_eq_execByMnemonic, execByMnemonic, h]

theorem exec_plp {i : Instr} (h : i.mnemonic = .plp) (s : State) :
    exec i s = runPlain i (pullP) s := by
  rw [exec_eq_execByMnemonic, execByMnemonic, h]

theorem exec_clc {i : Instr} (h : i.mnemonic = .clc) (s : State) :
    exec i s = runPlain i (State.setFlag .carry false) s := by
  rw [exec_eq_execByMnemonic, execByMnemonic, h]

theorem exec_sec {i : Instr} (h : i.mnemonic = .sec) (s : State) :
    exec i s = runPlain i (State.setFlag .carry true) s := by
  rw [exec_eq_execByMnemonic, execByMnemonic, h]

theorem exec_cli {i : Instr} (h : i.mnemonic = .cli) (s : State) :
    exec i s = runPlain i (State.setFlag .interruptDisable false) s := by
  rw [exec_eq_execByMnemonic, execByMnemonic, h]

theorem exec_sei {i : Instr} (h : i.mnemonic = .sei) (s : State) :
    exec i s = runPlain i (State.setFlag .interruptDisable true) s := by
  rw [exec_eq_execByMnemonic, execByMnemonic, h]

theorem exec_cld {i : Instr} (h : i.mnemonic = .cld) (s : State) :
    exec i s = runPlain i (State.setFlag .decimalMode false) s := by
  rw [exec_eq_execByMnemonic, execByMnemonic, h]

theorem exec_sed {i : Instr} (h : i.mnemonic = .sed) (s : State) :
    exec i s = runPlain i (State.setFlag .decimalMode true) s := by
  rw [exec_eq_execByMnemonic, execByMnemonic, h]

theorem exec_clv {i : Instr} (h : i.mnemonic = .clv) (s : State) :
    exec i s = runPlain i (State.setFlag .overflow false) s := by
  rw [exec_eq_execByMnemonic, execByMnemonic, h]

theorem exec_nop {i : Instr} (h : i.mnemonic = .nop) (s : State) :
    exec i s = runPlain i (fun t => t) s := by
  rw [exec_eq_execByMnemonic, execByMnemonic, h]

theorem exec_brk {i : Instr} (h : i.mnemonic = .brk) (s : State) :
    exec i s = runJump i State.trapEntry s := by
  rw [exec_eq_execByMnemonic, execByMnemonic, h]

theorem exec_rti {i : Instr} (h : i.mnemonic = .rti) (s : State) :
    exec i s = runJump i State.trapReturn s := by
  rw [exec_eq_execByMnemonic, execByMnemonic, h]

end Sys2Proof.Machine
end

