-- ==== Sys2Proof/Laws/Contract.lean ====
section
/-! SUPPORT. The execution contract: what `runPlain`, `runJump` and `runBranch` answer, and what the operand and the store address
depend on. -/

namespace Sys2Proof.Machine

/-! ### PC advance -/

theorem nextPC_zero (f : Format) (pc : Word) : nextPC f 0 pc = pc + BitVec.ofNat 16 (1 + f.operandBytes) := by
  apply BitVec.eq_of_toNat_eq
  have h : ((pc.toNat : Int) + 1 + f.operandBytes + 0) = ((pc.toNat + (1 + f.operandBytes) : Nat) : Int) := by
    push_cast; ring
  rw [nextPC, h, BitVec.ofInt_natCast]
  simp

@[simp] theorem advance_pc (i : Instr) (s : State) : (advance i s).pc = s.pc + BitVec.ofNat 16 i.length :=
  nextPC_zero i.format s.pc

@[simp] theorem advance_a (i : Instr) (s : State) : (advance i s).a = s.a := rfl
@[simp] theorem advance_x (i : Instr) (s : State) : (advance i s).x = s.x := rfl
@[simp] theorem advance_y (i : Instr) (s : State) : (advance i s).y = s.y := rfl
@[simp] theorem advance_sp (i : Instr) (s : State) : (advance i s).sp = s.sp := rfl
@[simp] theorem advance_p (i : Instr) (s : State) : (advance i s).p = s.p := rfl
@[simp] theorem advance_mem (i : Instr) (s : State) : (advance i s).mem = s.mem := rfl
@[simp] theorem advance_lastExecuted (i : Instr) (s : State) : (advance i s).lastExecuted = s.lastExecuted := rfl
@[simp] theorem advance_lastExtraCycles (i : Instr) (s : State) : (advance i s).lastExtraCycles = s.lastExtraCycles := rfl
@[simp] theorem advance_lastWrite (i : Instr) (s : State) : (advance i s).lastWrite = s.lastWrite := rfl
@[simp] theorem advance_obs (i : Instr) (s : State) : (advance i s).obs = s.obs := rfl
@[simp] theorem advance_load (i : Instr) (addr : Word) (s : State) : (advance i s).load addr = s.load addr := rfl
@[simp] theorem advance_flag (i : Instr) (f : Flag) (s : State) : (advance i s).flag f = s.flag f := rfl

/-! ### The answers of the contract -/

theorem runPlain_eq (i : Instr) (effect : State → State) (s : State) :
    runPlain i effect s = .next ((advance i (effect s.beginExecute)).record i (pageCrossPenalty i s)) := rfl

theorem runJump_eq (i : Instr) (effect : State → State) (s : State) :
    runJump i effect s = .next ((effect s.beginExecute).record i 0) := rfl

theorem runBranch_taken {f : Flag} {value : Bool} {s : State} (h : s.flag f = value) (i : Instr) (w : Word) :
    runBranch i f value w s =
      .next ((s.beginExecute.setPC (branchTarget w s.pc)).record i (takenPenalty w s.pc)) := by
  simp [runBranch, h, executeWith]

theorem runBranch_not_taken {f : Flag} {value : Bool} {s : State} (h : s.flag f ≠ value) (i : Instr) (w : Word) :
    runBranch i f value w s = .next ((s.beginExecute.setPC (s.pc + 2#16)).record i 0) := by
  simp [runBranch, h, executeWith, nextPC_zero, Format.operandBytes]

/-! ### What the operand and the store address depend on -/

@[simp] theorem operandByte_beginExecute (i : Instr) (s : State) : operandByte i s.beginExecute = operandByte i s := rfl

@[simp] theorem storeAddress_beginExecute (i : Instr) (s : State) : storeAddress i s.beginExecute = storeAddress i s := rfl

/-- The effective address depends on the index registers and the memory alone. -/
theorem ea_congr {s t : State} (hx : s.x = t.x) (hy : s.y = t.y) (hm : s.mem = t.mem) (m : MemMode) (w : Word) :
    ea m w s = ea m w t := by
  cases m <;> simp [ea, eaZeroPageX, eaZeroPageY, eaAbsoluteX, eaAbsoluteY, eaIndexedIndirect, eaIndirectIndexed,
    zeroPagePointer, hx, hy, State.load_congr hm]

theorem storeAddress_congr {s t : State} (hx : s.x = t.x) (hy : s.y = t.y) (hm : s.mem = t.mem) (i : Instr) :
    storeAddress i s = storeAddress i t := by
  unfold storeAddress
  split <;> simp [ea_congr hx hy hm]

theorem operandByte_congr {s t : State} (ha : s.a = t.a) (hx : s.x = t.x) (hy : s.y = t.y) (hm : s.mem = t.mem)
    (i : Instr) : operandByte i s = operandByte i t := by
  unfold operandByte
  split <;> simp [ha, ea_congr hx hy hm, State.load_congr hm]

theorem pageCrossPenalty_congr {s t : State} (hx : s.x = t.x) (hy : s.y = t.y) (hm : s.mem = t.mem) (i : Instr) :
    pageCrossPenalty i s = pageCrossPenalty i t := by
  have h : ∀ m w, pageCross m w s = pageCross m w t := by
    intro m w
    cases m <;> simp [pageCross, eaAbsoluteX, eaAbsoluteY, eaIndirectIndexed, zeroPagePointer, hx, hy, State.load_congr hm]
  unfold pageCrossPenalty
  split <;> simp [h]

theorem pageCrossPenalty_le_one (i : Instr) (s : State) : pageCrossPenalty i s ≤ 1 := by
  unfold pageCrossPenalty
  split
  · split <;> simp
  all_goals simp

/-- No penalty for an opcode outside the page-cross-check set (R137). -/
theorem pageCrossPenalty_eq_zero {i : Instr} (h : pageCrossCheckSet.contains i.opcode = false) (s : State) :
    pageCrossPenalty i s = 0 := by
  unfold pageCrossPenalty
  simp only [h, Bool.false_and, Bool.false_eq_true, if_false]
  split <;> rfl

/-! ### The operand of a store or read-modify-write -/

/-- When there is a store address, the operand is the byte at it. -/
theorem operandByte_of_storeAddress {i : Instr} {s : State} {addr : Word} (h : storeAddress i s = some addr) :
    operandByte i s = s.load addr := by
  unfold storeAddress at h
  split at h <;> simp_all [operandByte]

end Sys2Proof.Machine
end

