-- ==== Sys2Proof/Laws/PerInstr.lean ====
section
/-! SUPPORT. Statements made once per instruction: the number of bytes of an encoding (R70, R72). -/

namespace Sys2Proof.Laws.ByteCount

/-- An instruction's encoding has `1 + OperandBytes(format)` bytes, its opcode first (R70, R72). -/
def Statement (i : Instr) : Prop :=
  (encode i).length = i.length ∧ (encode i).head? = some i.opcode

theorem adcImm (d : Byte) : Statement (.adcImm d) := ⟨rfl, rfl⟩
theorem adcZp (d : Byte) : Statement (.adcZp d) := ⟨rfl, rfl⟩
theorem adcZpx (d : Byte) : Statement (.adcZpx d) := ⟨rfl, rfl⟩
theorem adcAbs (w : Word) : Statement (.adcAbs w) := ⟨rfl, rfl⟩
theorem adcAbsx (w : Word) : Statement (.adcAbsx w) := ⟨rfl, rfl⟩
theorem adcAbsy (w : Word) : Statement (.adcAbsy w) := ⟨rfl, rfl⟩
theorem adcIndx (d : Byte) : Statement (.adcIndx d) := ⟨rfl, rfl⟩
theorem adcIndy (d : Byte) : Statement (.adcIndy d) := ⟨rfl, rfl⟩
theorem sbcImm (d : Byte) : Statement (.sbcImm d) := ⟨rfl, rfl⟩
theorem sbcZp (d : Byte) : Statement (.sbcZp d) := ⟨rfl, rfl⟩
theorem sbcZpx (d : Byte) : Statement (.sbcZpx d) := ⟨rfl, rfl⟩
theorem sbcAbs (w : Word) : Statement (.sbcAbs w) := ⟨rfl, rfl⟩
theorem sbcAbsx (w : Word) : Statement (.sbcAbsx w) := ⟨rfl, rfl⟩
theorem sbcAbsy (w : Word) : Statement (.sbcAbsy w) := ⟨rfl, rfl⟩
theorem sbcIndx (d : Byte) : Statement (.sbcIndx d) := ⟨rfl, rfl⟩
theorem sbcIndy (d : Byte) : Statement (.sbcIndy d) := ⟨rfl, rfl⟩
theorem andImm (d : Byte) : Statement (.andImm d) := ⟨rfl, rfl⟩
theorem andZp (d : Byte) : Statement (.andZp d) := ⟨rfl, rfl⟩
theorem andZpx (d : Byte) : Statement (.andZpx d) := ⟨rfl, rfl⟩
theorem andAbs (w : Word) : Statement (.andAbs w) := ⟨rfl, rfl⟩
theorem andAbsx (w : Word) : Statement (.andAbsx w) := ⟨rfl, rfl⟩
theorem andAbsy (w : Word) : Statement (.andAbsy w) := ⟨rfl, rfl⟩
theorem andIndx (d : Byte) : Statement (.andIndx d) := ⟨rfl, rfl⟩
theorem andIndy (d : Byte) : Statement (.andIndy d) := ⟨rfl, rfl⟩
theorem oraImm (d : Byte) : Statement (.oraImm d) := ⟨rfl, rfl⟩
theorem oraZp (d : Byte) : Statement (.oraZp d) := ⟨rfl, rfl⟩
theorem oraZpx (d : Byte) : Statement (.oraZpx d) := ⟨rfl, rfl⟩
theorem oraAbs (w : Word) : Statement (.oraAbs w) := ⟨rfl, rfl⟩
theorem oraAbsx (w : Word) : Statement (.oraAbsx w) := ⟨rfl, rfl⟩
theorem oraAbsy (w : Word) : Statement (.oraAbsy w) := ⟨rfl, rfl⟩
theorem oraIndx (d : Byte) : Statement (.oraIndx d) := ⟨rfl, rfl⟩
theorem oraIndy (d : Byte) : Statement (.oraIndy d) := ⟨rfl, rfl⟩
theorem eorImm (d : Byte) : Statement (.eorImm d) := ⟨rfl, rfl⟩
theorem eorZp (d : Byte) : Statement (.eorZp d) := ⟨rfl, rfl⟩
theorem eorZpx (d : Byte) : Statement (.eorZpx d) := ⟨rfl, rfl⟩
theorem eorAbs (w : Word) : Statement (.eorAbs w) := ⟨rfl, rfl⟩
theorem eorAbsx (w : Word) : Statement (.eorAbsx w) := ⟨rfl, rfl⟩
theorem eorAbsy (w : Word) : Statement (.eorAbsy w) := ⟨rfl, rfl⟩
theorem eorIndx (d : Byte) : Statement (.eorIndx d) := ⟨rfl, rfl⟩
theorem eorIndy (d : Byte) : Statement (.eorIndy d) := ⟨rfl, rfl⟩
theorem cmpImm (d : Byte) : Statement (.cmpImm d) := ⟨rfl, rfl⟩
theorem cmpZp (d : Byte) : Statement (.cmpZp d) := ⟨rfl, rfl⟩
theorem cmpZpx (d : Byte) : Statement (.cmpZpx d) := ⟨rfl, rfl⟩
theorem cmpAbs (w : Word) : Statement (.cmpAbs w) := ⟨rfl, rfl⟩
theorem cmpAbsx (w : Word) : Statement (.cmpAbsx w) := ⟨rfl, rfl⟩
theorem cmpAbsy (w : Word) : Statement (.cmpAbsy w) := ⟨rfl, rfl⟩
theorem cmpIndx (d : Byte) : Statement (.cmpIndx d) := ⟨rfl, rfl⟩
theorem cmpIndy (d : Byte) : Statement (.cmpIndy d) := ⟨rfl, rfl⟩
theorem cpxImm (d : Byte) : Statement (.cpxImm d) := ⟨rfl, rfl⟩
theorem cpxZp (d : Byte) : Statement (.cpxZp d) := ⟨rfl, rfl⟩
theorem cpxAbs (w : Word) : Statement (.cpxAbs w) := ⟨rfl, rfl⟩
theorem cpyImm (d : Byte) : Statement (.cpyImm d) := ⟨rfl, rfl⟩
theorem cpyZp (d : Byte) : Statement (.cpyZp d) := ⟨rfl, rfl⟩
theorem cpyAbs (w : Word) : Statement (.cpyAbs w) := ⟨rfl, rfl⟩
theorem bitZp (d : Byte) : Statement (.bitZp d) := ⟨rfl, rfl⟩
theorem bitAbs (w : Word) : Statement (.bitAbs w) := ⟨rfl, rfl⟩
theorem aslAcc : Statement .aslAcc := ⟨rfl, rfl⟩
theorem aslZp (d : Byte) : Statement (.aslZp d) := ⟨rfl, rfl⟩
theorem aslZpx (d : Byte) : Statement (.aslZpx d) := ⟨rfl, rfl⟩
theorem aslAbs (w : Word) : Statement (.aslAbs w) := ⟨rfl, rfl⟩
theorem aslAbsx (w : Word) : Statement (.aslAbsx w) := ⟨rfl, rfl⟩
theorem lsrAcc : Statement .lsrAcc := ⟨rfl, rfl⟩
theorem lsrZp (d : Byte) : Statement (.lsrZp d) := ⟨rfl, rfl⟩
theorem lsrZpx (d : Byte) : Statement (.lsrZpx d) := ⟨rfl, rfl⟩
theorem lsrAbs (w : Word) : Statement (.lsrAbs w) := ⟨rfl, rfl⟩
theorem lsrAbsx (w : Word) : Statement (.lsrAbsx w) := ⟨rfl, rfl⟩
theorem rolAcc : Statement .rolAcc := ⟨rfl, rfl⟩
theorem rolZp (d : Byte) : Statement (.rolZp d) := ⟨rfl, rfl⟩
theorem rolZpx (d : Byte) : Statement (.rolZpx d) := ⟨rfl, rfl⟩
theorem rolAbs (w : Word) : Statement (.rolAbs w) := ⟨rfl, rfl⟩
theorem rolAbsx (w : Word) : Statement (.rolAbsx w) := ⟨rfl, rfl⟩
theorem rorAcc : Statement .rorAcc := ⟨rfl, rfl⟩
theorem rorZp (d : Byte) : Statement (.rorZp d) := ⟨rfl, rfl⟩
theorem rorZpx (d : Byte) : Statement (.rorZpx d) := ⟨rfl, rfl⟩
theorem rorAbs (w : Word) : Statement (.rorAbs w) := ⟨rfl, rfl⟩
theorem rorAbsx (w : Word) : Statement (.rorAbsx w) := ⟨rfl, rfl⟩
theorem incZp (d : Byte) : Statement (.incZp d) := ⟨rfl, rfl⟩
theorem incZpx (d : Byte) : Statement (.incZpx d) := ⟨rfl, rfl⟩
theorem incAbs (w : Word) : Statement (.incAbs w) := ⟨rfl, rfl⟩
theorem incAbsx (w : Word) : Statement (.incAbsx w) := ⟨rfl, rfl⟩
theorem decZp (d : Byte) : Statement (.decZp d) := ⟨rfl, rfl⟩
theorem decZpx (d : Byte) : Statement (.decZpx d) := ⟨rfl, rfl⟩
theorem decAbs (w : Word) : Statement (.decAbs w) := ⟨rfl, rfl⟩
theorem decAbsx (w : Word) : Statement (.decAbsx w) := ⟨rfl, rfl⟩
theorem inx : Statement .inx := ⟨rfl, rfl⟩
theorem iny : Statement .iny := ⟨rfl, rfl⟩
theorem dex : Statement .dex := ⟨rfl, rfl⟩
theorem dey : Statement .dey := ⟨rfl, rfl⟩
theorem ldaImm (d : Byte) : Statement (.ldaImm d) := ⟨rfl, rfl⟩
theorem ldaZp (d : Byte) : Statement (.ldaZp d) := ⟨rfl, rfl⟩
theorem ldaZpx (d : Byte) : Statement (.ldaZpx d) := ⟨rfl, rfl⟩
theorem ldaAbs (w : Word) : Statement (.ldaAbs w) := ⟨rfl, rfl⟩
theorem ldaAbsx (w : Word) : Statement (.ldaAbsx w) := ⟨rfl, rfl⟩
theorem ldaAbsy (w : Word) : Statement (.ldaAbsy w) := ⟨rfl, rfl⟩
theorem ldaIndx (d : Byte) : Statement (.ldaIndx d) := ⟨rfl, rfl⟩
theorem ldaIndy (d : Byte) : Statement (.ldaIndy d) := ⟨rfl, rfl⟩
theorem ldxImm (d : Byte) : Statement (.ldxImm d) := ⟨rfl, rfl⟩
theorem ldxZp (d : Byte) : Statement (.ldxZp d) := ⟨rfl, rfl⟩
theorem ldxZpy (d : Byte) : Statement (.ldxZpy d) := ⟨rfl, rfl⟩
theorem ldxAbs (w : Word) : Statement (.ldxAbs w) := ⟨rfl, rfl⟩
theorem ldxAbsy (w : Word) : Statement (.ldxAbsy w) := ⟨rfl, rfl⟩
theorem ldyImm (d : Byte) : Statement (.ldyImm d) := ⟨rfl, rfl⟩
theorem ldyZp (d : Byte) : Statement (.ldyZp d) := ⟨rfl, rfl⟩
theorem ldyZpx (d : Byte) : Statement (.ldyZpx d) := ⟨rfl, rfl⟩
theorem ldyAbs (w : Word) : Statement (.ldyAbs w) := ⟨rfl, rfl⟩
theorem ldyAbsx (w : Word) : Statement (.ldyAbsx w) := ⟨rfl, rfl⟩
theorem staZp (d : Byte) : Statement (.staZp d) := ⟨rfl, rfl⟩
theorem staZpx (d : Byte) : Statement (.staZpx d) := ⟨rfl, rfl⟩
theorem staAbs (w : Word) : Statement (.staAbs w) := ⟨rfl, rfl⟩
theorem staAbsx (w : Word) : Statement (.staAbsx w) := ⟨rfl, rfl⟩
theorem staAbsy (w : Word) : Statement (.staAbsy w) := ⟨rfl, rfl⟩
theorem staIndx (d : Byte) : Statement (.staIndx d) := ⟨rfl, rfl⟩
theorem staIndy (d : Byte) : Statement (.staIndy d) := ⟨rfl, rfl⟩
theorem stxZp (d : Byte) : Statement (.stxZp d) := ⟨rfl, rfl⟩
theorem stxZpy (d : Byte) : Statement (.stxZpy d) := ⟨rfl, rfl⟩
theorem stxAbs (w : Word) : Statement (.stxAbs w) := ⟨rfl, rfl⟩
theorem styZp (d : Byte) : Statement (.styZp d) := ⟨rfl, rfl⟩
theorem styZpx (d : Byte) : Statement (.styZpx d) := ⟨rfl, rfl⟩
theorem styAbs (w : Word) : Statement (.styAbs w) := ⟨rfl, rfl⟩
theorem tax : Statement .tax := ⟨rfl, rfl⟩
theorem tay : Statement .tay := ⟨rfl, rfl⟩
theorem txa : Statement .txa := ⟨rfl, rfl⟩
theorem tya : Statement .tya := ⟨rfl, rfl⟩
theorem tsx : Statement .tsx := ⟨rfl, rfl⟩
theorem txs : Statement .txs := ⟨rfl, rfl⟩
theorem bcc (d : Byte) : Statement (.bcc d) := ⟨rfl, rfl⟩
theorem bcs (d : Byte) : Statement (.bcs d) := ⟨rfl, rfl⟩
theorem beq (d : Byte) : Statement (.beq d) := ⟨rfl, rfl⟩
theorem bne (d : Byte) : Statement (.bne d) := ⟨rfl, rfl⟩
theorem bmi (d : Byte) : Statement (.bmi d) := ⟨rfl, rfl⟩
theorem bpl (d : Byte) : Statement (.bpl d) := ⟨rfl, rfl⟩
theorem bvc (d : Byte) : Statement (.bvc d) := ⟨rfl, rfl⟩
theorem bvs (d : Byte) : Statement (.bvs d) := ⟨rfl, rfl⟩
theorem jmpAbs (w : Word) : Statement (.jmpAbs w) := ⟨rfl, rfl⟩
theorem jmpInd (w : Word) : Statement (.jmpInd w) := ⟨rfl, rfl⟩
theorem jsr (w : Word) : Statement (.jsr w) := ⟨rfl, rfl⟩
theorem rts : Statement .rts := ⟨rfl, rfl⟩
theorem pha : Statement .pha := ⟨rfl, rfl⟩
theorem php : Statement .php := ⟨rfl, rfl⟩
theorem pla : Statement .pla := ⟨rfl, rfl⟩
theorem plp : Statement .plp := ⟨rfl, rfl⟩
theorem clc : Statement .clc := ⟨rfl, rfl⟩
theorem sec : Statement .sec := ⟨rfl, rfl⟩
theorem cli : Statement .cli := ⟨rfl, rfl⟩
theorem sei : Statement .sei := ⟨rfl, rfl⟩
theorem cld : Statement .cld := ⟨rfl, rfl⟩
theorem sed : Statement .sed := ⟨rfl, rfl⟩
theorem clv : Statement .clv := ⟨rfl, rfl⟩
theorem nop : Statement .nop := ⟨rfl, rfl⟩
theorem brk : Statement .brk := ⟨rfl, rfl⟩
theorem rti : Statement .rti := ⟨rfl, rfl⟩

end Sys2Proof.Laws.ByteCount
end

