-- ==== Sys2Proof/Laws/Decode.lean ====
section
/-! SUPPORT. The decoder and the encoder agree: each entry of the opcode map holds instructions with that opcode, and each
instruction stands in the map at its opcode. -/

namespace Sys2Proof

/-- What an entry of the opcode map says of its opcode byte: the entry's instructions have that opcode, the right number of
operand bytes, and the operand they were given. -/
def OpForm.Matches (b : Byte) : OpForm → Prop
  | .unmapped => True
  | .bare i => i.opcode = b ∧ i.format.operandBytes = 0 ∧ i.operand = none
  | .byte f => ∀ d, (f d).opcode = b ∧ (f d).format.operandBytes = 1 ∧ (f d).operand = some (zeroExtend d)
  | .word f => ∀ w, (f w).opcode = b ∧ (f w).format.operandBytes = 2 ∧ (f w).operand = some w

/-- Every entry of the opcode map matches its place (R74). -/
theorem opForm_matches (b : Byte) : (opForm b).Matches b := by
  obtain ⟨n, hn⟩ : ∃ n, b = BitVec.ofNat 8 n ∧ n < 256 := ⟨b.toNat, by simp, b.isLt⟩
  obtain ⟨rfl, hn⟩ := hn
  interval_cases n <;>
    first
    | exact trivial
    | exact ⟨rfl, rfl, rfl⟩
    | exact fun _ => ⟨rfl, rfl, rfl⟩

/-- Every instruction stands in the opcode map at its opcode, in the entry that its number of operand bytes asks for. -/
theorem opForm_opcode (i : Instr) :
    opForm i.opcode = .bare i ∨ (∃ f d, opForm i.opcode = .byte f ∧ f d = i) ∨
      (∃ f w, opForm i.opcode = .word f ∧ f w = i) := by
  cases i <;> simp only [Instr.opcode, Instr.descriptor] <;>
    first
    | exact .inl rfl
    | (rename_i d; exact .inr (.inl ⟨_, d, rfl, rfl⟩))
    | (rename_i w; exact .inr (.inr ⟨_, w, rfl, rfl⟩))

/-- The opcode of an instruction is in the map. -/
theorem mapped_opcode (i : Instr) : mapped i.opcode = true := by
  rcases opForm_opcode i with h | ⟨f, d, h, -⟩ | ⟨f, w, h, -⟩ <;> simp [mapped, h]

/-- A decoded instruction has the opcode byte it was decoded from. -/
theorem opcode_of_decode {read : Nat → Byte} {i : Instr} (h : decode read = .ok i) : i.opcode = read 0 := by
  have hm := opForm_matches (read 0)
  unfold decode at h
  generalize opForm (read 0) = f at h hm
  cases f with
  | unmapped => cases h
  | bare j => cases h; exact hm.1
  | byte f => cases h; exact (hm _).1
  | word f => cases h; exact (hm _).1

/-- Decoding fails exactly on an opcode byte outside the map, and names it. -/
theorem decode_error_iff {read : Nat → Byte} {e : DecodeError} :
    decode read = .error e ↔ mapped (read 0) = false ∧ e = .unknownOpcode (read 0) := by
  unfold decode mapped
  cases opForm (read 0) <;> simp [eq_comm]

/-- Decoding depends on no more than the three bytes it may read. -/
theorem decode_congr {read read' : Nat → Byte} (h : ∀ k < 3, read k = read' k) : decode read = decode read' := by
  unfold decode
  rw [h 0 (by omega), h 1 (by omega), h 2 (by omega)]

/-! ### Facts about all rows of the opcode map -/

/-- The descriptor that stands at an opcode byte of the map (R74). -/
def described (b : Byte) : Option Descriptor :=
  match opForm b with
  | .unmapped => none
  | .bare i => some i.descriptor
  | .byte f => some (f 0#8).descriptor
  | .word f => some (f 0#16).descriptor

/-- An instruction's descriptor is the one that stands at its opcode. -/
theorem described_opcode (i : Instr) : described i.opcode = some i.descriptor := by
  cases i <;> simp only [Instr.opcode, Instr.descriptor] <;> rfl

/-- A fact about the descriptor of every mapped opcode byte holds of every instruction's; the premise is decided over the 256
bytes, so no proof needs a case split over `Instr`. -/
theorem forall_descriptors {P : Descriptor → Bool} (h : ∀ b : Byte, (described b).all P = true) (i : Instr) :
    P i.descriptor = true := by
  simpa [described_opcode] using h i.opcode

end Sys2Proof
end

