-- ==== Sys2Proof/Laws/Completion.lean ====
section
/-! SUPPORT. What every `exec` answers: a next state with the instruction's own records; the shapes of the instructions by their
place in the opcode map; the stores and the read-modify-writes once for all their forms. -/

namespace Sys2Proof.Machine

/-! ### Every instruction completes -/

/-- `exec` always answers a next state, with the records of R136 and the observer untouched (R274). -/
theorem exec_next (i : Instr) (s : State) :
    ∃ t, exec i s = .next t ∧ t.lastExecuted = some ⟨i.opcode, i.operand⟩ ∧ t.obs = s.obs := by
  have branch : ∀ (f : Flag) (v : Bool) (w : Word),
      ∃ t, runBranch i f v w s = .next t ∧ t.lastExecuted = some ⟨i.opcode, i.operand⟩ ∧ t.obs = s.obs := by
    intro f v w
    by_cases h : s.flag f = v
    · exact ⟨_, runBranch_taken h i w, rfl, rfl⟩
    · exact ⟨_, runBranch_not_taken h i w, rfl, rfl⟩
  have plain : ∀ e : State → State, (∀ t, (e t).obs = t.obs) →
      ∃ t, runPlain i e s = .next t ∧ t.lastExecuted = some ⟨i.opcode, i.operand⟩ ∧ t.obs = s.obs :=
    fun e h => ⟨_, runPlain_eq i e s, rfl, h s.beginExecute⟩
  have jump : ∀ e : State → State, (∀ t, (e t).obs = t.obs) →
      ∃ t, runJump i e s = .next t ∧ t.lastExecuted = some ⟨i.opcode, i.operand⟩ ∧ t.obs = s.obs :=
    fun e h => ⟨_, runJump_eq i e s, rfl, h s.beginExecute⟩
  have modify : ∀ op : Byte → State → Byte × State, (∀ b t, (op b t).2.obs = t.obs) →
      ∀ t, (modifyEffect i op t).obs = t.obs := by
    intro op h t
    unfold modifyEffect
    split
    · exact h _ _
    · exact h _ _
  have store : ∀ (v : State → Byte) (t : State), (storeEffect i v t).obs = t.obs := by
    intro v t
    unfold storeEffect
    split <;> rfl
  rw [exec_eq_execByMnemonic]
  unfold execByMnemonic
  cases i.mnemonic
  case bcc | bcs | beq | bne | bmi | bpl | bvc | bvs => exact branch _ _ _
  case asl | lsr | rol | ror | inc | dec => exact plain _ (modify _ fun _ _ => rfl)
  case sta | stx | sty => exact plain _ (store _)
  case jmp => exact jump _ fun _ => rfl
  case jsr => exact jump _ fun t => by simp [callSubroutine]
  case rts => exact jump _ fun t => by simp [returnFromSubroutine]
  case brk => exact jump _ fun t => by simp [State.trapEntry]
  case rti => exact jump _ fun t => by simp [State.trapReturn]
  all_goals exact plain _ fun _ => rfl

/-- `exec` reads nothing of the observer: with other observer state it answers the same core state (R274). -/
theorem exec_obs (i : Instr) {s t : State} (o : Observer) (h : exec i s = .next t) :
    exec i { s with obs := o } = .next { t with obs := o } := by
  have branch : ∀ (f : Flag) (v : Bool) (w : Word), runBranch i f v w s = .next t →
      runBranch i f v w { s with obs := o } = .next { t with obs := o } := by
    intro f v w hb
    unfold runBranch at hb ⊢
    split at hb <;> rename_i hg
    · cases hb
      exact if_pos hg
    · cases hb
      exact if_neg hg
  cases i <;> first
    | (cases h; rfl)
    | exact branch _ _ _ h

/-! ### The shapes of the instructions -/

/-- Every instruction that does not set `PC` itself is a plain run of some effect (R130). -/
theorem exec_plain {i : Instr} (h : i.mnemonic ∉ pcSetters) (s : State) : ∃ e, exec i s = runPlain i e s := by
  rw [exec_eq_execByMnemonic]
  unfold execByMnemonic
  generalize i.mnemonic = m at h
  cases m
  case bcc | bcs | beq | bne | bmi | bpl | bvc | bvs | jmp | jsr | rts | brk | rti => exact absurd h (by decide)
  all_goals exact ⟨_, rfl⟩

/-- The instructions of Relative mode are the eight branches (R210). -/
theorem rel_iff_branch (i : Instr) :
    i.format = .mode .rel ↔ i.mnemonic ∈ [Mnemonic.bcc, .bcs, .beq, .bne, .bmi, .bpl, .bvc, .bvs] :=
  of_decide_eq_true (forall_descriptors (P := fun d => decide (d.format = .mode .rel ↔
    d.mnemonic ∈ [Mnemonic.bcc, .bcs, .beq, .bne, .bmi, .bpl, .bvc, .bvs])) (by decide) i)

/-- Every instruction that sets `PC` itself and is no branch is a jump: no penalty (R137, R140). -/
theorem exec_jump {i : Instr} (h : i.mnemonic ∈ pcSetters) (hr : i.format ≠ .mode .rel) (s : State) :
    (∃ e, exec i s = runJump i e s) ∧ pageCrossPenalty i s = 0 := by
  have hc : i.mnemonic ∈ pcSetters → i.format = .mode .rel ∨ pageCrossCheckSet.contains i.opcode = false :=
    of_decide_eq_true (forall_descriptors (P := fun d => decide (d.mnemonic ∈ pcSetters →
      d.format = .mode .rel ∨ pageCrossCheckSet.contains d.opcode = false)) (by decide) i)
  refine ⟨?_, pageCrossPenalty_eq_zero ((hc h).resolve_left hr) s⟩
  rw [Ne, rel_iff_branch] at hr
  rw [exec_eq_execByMnemonic]
  unfold execByMnemonic
  generalize i.mnemonic = m at h hr
  cases m
  case jmp | jsr | rts | brk | rti => exact ⟨_, rfl⟩
  case bcc | bcs | beq | bne | bmi | bpl | bvc | bvs => exact absurd (by decide) hr
  all_goals exact absurd h (by decide)

/-- The formats of the page-cross-check set (R77). -/
theorem format_of_pageCrossCheck {i : Instr} (h : i.opcode ∈ pageCrossCheckSet) :
    i.format = .mode (.mem .absx) ∨ i.format = .mode (.mem .absy) ∨ i.format = .mode (.mem .indy) :=
  of_decide_eq_true (forall_descriptors (P := fun d => decide (d.opcode ∈ pageCrossCheckSet →
    d.format = .mode (.mem .absx) ∨ d.format = .mode (.mem .absy) ∨ d.format = .mode (.mem .indy))) (by decide) i) h

/-- A format with one operand byte: the operand word is that byte, zero-extended (R73, R126). -/
theorem operandWord_of_oneByte {i : Instr} (h : i.format.operandBytes = 1) : ∃ d, operandWord i = zeroExtend d := by
  have hm := opForm_matches i.opcode
  rcases opForm_opcode i with h1 | ⟨f, d, h1, rfl⟩ | ⟨f, w, h1, rfl⟩
  · rw [h1] at hm
    exact absurd (hm.2.1.symm.trans h) (by decide)
  · rw [h1] at hm
    exact ⟨d, by rw [operandWord, (hm d).2.2]; rfl⟩
  · rw [h1] at hm
    exact absurd ((hm w).2.1.symm.trans h) (by decide)

/-! ### Stores and read-modify-writes, once for all forms -/

/-- The operand of a read-modify-write is in `A` or in memory, and it has no penalty (R77, R170). -/
theorem modifier_operand {i : Instr} (h : i.mnemonic ∈ [Mnemonic.asl, .lsr, .rol, .ror, .inc, .dec]) (s : State) :
    (storeAddress i s = none → i.format = .mode .acc ∧ operandByte i s = s.a) ∧ pageCrossPenalty i s = 0 := by
  have hf := of_decide_eq_true (forall_descriptors (P := fun d => decide
    (d.mnemonic ∈ [Mnemonic.asl, .lsr, .rol, .ror, .inc, .dec] →
      (d.format = .mode .acc ∨ d.format ∈ [.mode (.mem .zp), .mode (.mem .zpx), .mode (.mem .abs), .mode (.mem .absx)]) ∧
      pageCrossCheckSet.contains d.opcode = false)) (by decide) i) h
  refine ⟨fun hn => ?_, pageCrossPenalty_eq_zero hf.2 s⟩
  have ha : i.format = .mode .acc := by
    refine hf.1.resolve_right fun hm => ?_
    change i.format ∈ _ at hm
    unfold storeAddress at hn
    simp only [List.mem_cons, List.not_mem_nil, or_false] at hm
    rcases hm with hm | hm | hm | hm <;> (rw [hm] at hn; exact absurd hn (by simp))
  exact ⟨ha, by rw [operandByte, ha]⟩

/-- The operand of a store is in memory, and it has no penalty (R77). -/
theorem storer_operand {i : Instr} (h : i.mnemonic ∈ [Mnemonic.sta, .stx, .sty]) (s : State) :
    (∃ addr, storeAddress i s = some addr) ∧ pageCrossPenalty i s = 0 := by
  have hf := of_decide_eq_true (forall_descriptors (P := fun d => decide
    (d.mnemonic ∈ [Mnemonic.sta, .stx, .sty] →
      (d.format ∈ [.mode (.mem .zp), .mode (.mem .zpx), .mode (.mem .zpy), .mode (.mem .abs), .mode (.mem .absx),
        .mode (.mem .absy), .mode (.mem .indx), .mode (.mem .indy)]) ∧
      pageCrossCheckSet.contains d.opcode = false)) (by decide) i) h
  refine ⟨?_, pageCrossPenalty_eq_zero hf.2 s⟩
  have hm := hf.1
  change i.format ∈ _ at hm
  unfold storeAddress
  simp only [List.mem_cons, List.not_mem_nil, or_false] at hm
  rcases hm with hm | hm | hm | hm | hm | hm | hm | hm <;> (rw [hm]; exact ⟨_, rfl⟩)

/-- What a store of a register answers (R194 to R196). -/
theorem store_completes {i : Instr} {value : State → Byte} {s : State} (hm : Memory.wf s.mem)
    (h : i.mnemonic ∈ [Mnemonic.sta, .stx, .sty]) (he : exec i s = runPlain i (storeEffect i value) s)
    (hv : value s.beginExecute = value s) :
    Completes i s fun t => ∃ addr, storeAddress i s = some addr ∧ t.load addr = value s ∧
      t.lastWrite = some (addr, value s) ∧ t.p = s.p ∧ Advances i s t ∧ t.lastExtraCycles = 0 ∧
      Frame i s t [] [] [addr] := by
  obtain ⟨⟨addr, ha⟩, hp⟩ := storer_operand h s
  refine ⟨_, he.trans (runPlain_eq ..), addr, ha, ?_⟩
  simp only [storeEffect, storeAddress_beginExecute, ha, hv, hp]
  refine ⟨State.load_store_same hm rfl _, rfl, rfl, by simp [Advances], rfl, ?_⟩
  constructor <;> simp
  intro b hb
  rw [State.load_store_other hb]
  simp

/-- What a read-modify-write answers, for an operation that gives a new value and a new `P` (R170). -/
theorem modify_completes {i : Instr} {op : Byte → State → Byte × State} {s : State} (hm : Memory.wf s.mem)
    (h : i.mnemonic ∈ [Mnemonic.asl, .lsr, .rol, .ror, .inc, .dec]) (he : exec i s = runPlain i (modifyEffect i op) s)
    {flags : List Flag} {new p : Byte} (hop : ∀ t : State, t.p = s.p → op (operandByte i s) t = (new, t.setP p))
    (hfl : ∀ f, f ∉ flags → flagOf f p = s.flag f) :
    ∃ t, exec i s = .next t ∧ t.p = p ∧ ModifiesOperand i s t new flags := by
  obtain ⟨hacc, hpen⟩ := modifier_operand h s
  refine ⟨_, he.trans (runPlain_eq ..), ?_⟩
  have hb := hop s.beginExecute rfl
  unfold ModifiesOperand modifyEffect
  rw [storeAddress_beginExecute]
  cases ha : storeAddress i s with
  | none =>
    rw [(hacc ha).2] at hb
    simp only [modifyAccumulator, State.beginExecute_a, hb]
    refine ⟨rfl, by simp [Advances], by simp [hpen], rfl, rfl, ?_⟩
    constructor <;> simp
    exact hfl
  | some addr =>
    rw [operandByte_of_storeAddress ha] at hb
    simp only [State.beginExecute_load, hb]
    refine ⟨rfl, by simp [Advances], by simp [hpen], State.load_store_same hm rfl _, rfl, ?_⟩
    constructor <;> simp
    · exact hfl
    · intro a ha'
      rw [State.load_store_other ha']
      simp

/-! ### Flags from a result -/

theorem bitValue_seven_eq_msb (b : Byte) : bitValue 7 b = b.msb := by
  simp [bitValue, BitVec.msb_eq_getLsbD_last]

/-- Z and N of a value, from the two flags (R97, R98). -/
theorem showsZN_of {t : State} {v : Byte} (hz : t.flag .zero = (v == 0#8)) (hn : t.flag .negative = bitValue 7 v) :
    ShowsZN v t := by
  refine ⟨by simp [hz], ?_⟩
  rw [hn]
  exact bitValue_seven v

/-- The overflow test by sign bits (R99). -/
theorem overflows_iff (r : Nat) (a b : Byte) :
    overflows r a b = true ↔ a.msb = b.msb ∧ (toByte r).msb ≠ b.msb := by
  unfold overflows
  rw [bitValue_seven_eq_msb, bitValue_seven_eq_msb, bitValue_seven_eq_msb]
  constructor
  · intro h
    simp at h
    exact ⟨h.1, h.1 ▸ h.2⟩
  · rintro ⟨h1, h2⟩
    simp [h1, h2]

end Sys2Proof.Machine
end

