-- ==== Sys2Proof/Laws/PowerReset.lean ====
section
/-! SUPPORT. What `PowerUp` and `Reset` do to each field, by the loop that clears the APU/IO cells. -/

namespace Sys2Proof.Machine

/-- The addresses `PowerUp` clears (R290). -/
theorem mem_clearedAtPowerUp {addr : Word} : addr ∈ clearedAtPowerUp ↔
    (0x4000 ≤ addr.toNat ∧ addr.toNat ≤ 0x4013) ∨ addr = 0x4015#16 ∨ addr = 0x4017#16 := by
  have key : addr ∈ (List.range 20).map (fun k => 0x4000#16 + BitVec.ofNat 16 k) ↔
      0x4000 ≤ addr.toNat ∧ addr.toNat ≤ 0x4013 := by
    rw [List.mem_map]
    constructor
    · rintro ⟨k, hk, rfl⟩
      rw [List.mem_range] at hk
      rw [BitVec.toNat_add, BitVec.toNat_ofNat, BitVec.toNat_ofNat]
      omega
    · rintro ⟨h1, h2⟩
      refine ⟨addr.toNat - 0x4000, List.mem_range.2 (by omega), BitVec.eq_of_toNat_eq ?_⟩
      rw [BitVec.toNat_add, BitVec.toNat_ofNat, BitVec.toNat_ofNat]
      omega
  rw [clearedAtPowerUp, List.mem_append, key]
  simp

/-- Clearing cells changes memory and `lastWrite` alone. -/
theorem storeZeros_frame (l : List Word) (s : State) :
    ∃ m w, storeZeros l s = { s with mem := m, lastWrite := w } := by
  induction l generalizing s with
  | nil => exact ⟨s.mem, s.lastWrite, rfl⟩
  | cons a l ih =>
    obtain ⟨m, w, h⟩ := ih (s.store a 0x00#8)
    exact ⟨m, w, h⟩

theorem storeZeros_wf (l : List Word) {s : State} (h : Memory.wf s.mem) : Memory.wf (storeZeros l s).mem := by
  induction l generalizing s with
  | nil => exact h
  | cons a l ih => exact ih (State.wf_store h a _)

/-- A byte after clearing cells: zero at every alias of a cleared cell, as before elsewhere. -/
theorem storeZeros_load (l : List Word) {s : State} (h : Memory.wf s.mem) (addr : Word) :
    ((∃ b ∈ l, cellOf addr = cellOf b) → (storeZeros l s).load addr = 0x00#8) ∧
    ((∀ b ∈ l, cellOf addr ≠ cellOf b) → (storeZeros l s).load addr = s.load addr) := by
  induction l generalizing s with
  | nil => exact ⟨fun ⟨b, hb, _⟩ => absurd hb (by simp), fun _ => rfl⟩
  | cons a l ih =>
    obtain ⟨ih1, ih2⟩ := ih (State.wf_store h a 0x00#8)
    constructor
    · rintro ⟨b, hb, he⟩
      by_cases hl : ∃ c ∈ l, cellOf addr = cellOf c
      · exact ih1 hl
      · have hne : ∀ c ∈ l, cellOf addr ≠ cellOf c := fun c hc he => hl ⟨c, hc, he⟩
        rcases List.mem_cons.1 hb with rfl | hb
        · exact (ih2 hne).trans (State.load_store_same h he _)
        · exact absurd he (hne b hb)
    · intro hne
      exact (ih2 fun c hc => hne c (List.mem_cons_of_mem _ hc)).trans
        (State.load_store_other (hne a List.mem_cons_self) _ _)

/-- The state `PowerUp` clears the cells of: the registers at their power-up values (R290). -/
def powerUpRegisters (s : State) : State :=
  ((((s.setP 0x34#8).setA 0x00#8).setX 0x00#8).setY 0x00#8).setSP 0xFD#8

/-- `PowerUp` field by field (R290): the registers by name, the rest from the state with its cells cleared. -/
theorem powerUp_eq (s : State) :
    s.powerUp = State.mk 0x00#8 0x00#8 0x00#8 0xFD#8 0x34#8
      ((storeZeros clearedAtPowerUp (powerUpRegisters s)).loadWord Config.resetVector)
      (storeZeros clearedAtPowerUp (powerUpRegisters s)).mem none 0
      (storeZeros clearedAtPowerUp (powerUpRegisters s)).lastWrite { s.obs with resetPending := true } := by
  obtain ⟨m, w, h⟩ := storeZeros_frame clearedAtPowerUp (powerUpRegisters s)
  have hp : s.powerUp = { (storeZeros clearedAtPowerUp (powerUpRegisters s)).vectorReset with
      lastExecuted := none, lastExtraCycles := 0 }.markReset := rfl
  rw [hp, h]
  rfl

/-- The last store of `PowerUp` (R26). -/
theorem storeZeros_lastWrite (s : State) : (storeZeros clearedAtPowerUp s).lastWrite = some (0x4017#16, 0x00#8) := by
  have h : clearedAtPowerUp = ((List.range 20).map (fun k => 0x4000#16 + BitVec.ofNat 16 k) ++ [0x4015#16]) ++ [0x4017#16] := by
    simp [clearedAtPowerUp]
  rw [h, storeZeros, List.foldl_append]
  rfl

/-! ### `PowerUp`, one lemma per field (R290) -/

@[simp] theorem powerUp_a (s : State) : s.powerUp.a = 0x00#8 := congrArg State.a (powerUp_eq s)
@[simp] theorem powerUp_x (s : State) : s.powerUp.x = 0x00#8 := congrArg State.x (powerUp_eq s)
@[simp] theorem powerUp_y (s : State) : s.powerUp.y = 0x00#8 := congrArg State.y (powerUp_eq s)
@[simp] theorem powerUp_sp (s : State) : s.powerUp.sp = 0xFD#8 := congrArg State.sp (powerUp_eq s)
@[simp] theorem powerUp_p (s : State) : s.powerUp.p = 0x34#8 := congrArg State.p (powerUp_eq s)
@[simp] theorem powerUp_lastExecuted (s : State) : s.powerUp.lastExecuted = none := congrArg State.lastExecuted (powerUp_eq s)
@[simp] theorem powerUp_lastExtraCycles (s : State) : s.powerUp.lastExtraCycles = 0 :=
  congrArg State.lastExtraCycles (powerUp_eq s)
@[simp] theorem powerUp_lastWrite (s : State) : s.powerUp.lastWrite = some (0x4017#16, 0x00#8) := by
  rw [powerUp_eq, storeZeros_lastWrite]
@[simp] theorem powerUp_obs (s : State) : s.powerUp.obs = { s.obs with resetPending := true } :=
  congrArg State.obs (powerUp_eq s)
theorem powerUp_mem (s : State) : s.powerUp.mem = (storeZeros clearedAtPowerUp (powerUpRegisters s)).mem := by
  rw [powerUp_eq]
theorem powerUp_pc (s : State) :
    s.powerUp.pc = (storeZeros clearedAtPowerUp (powerUpRegisters s)).loadWord Config.resetVector := by
  rw [powerUp_eq]

theorem powerUp_wf {s : State} (h : Memory.wf s.mem) : Memory.wf s.powerUp.mem := by
  rw [powerUp_mem]
  exact storeZeros_wf clearedAtPowerUp h

/-- Every cleared address is its own cell. -/
theorem cellOf_cleared {addr : Word} : (∃ b ∈ clearedAtPowerUp, cellOf addr = cellOf b) ↔ addr ∈ clearedAtPowerUp := by
  refine ⟨fun ⟨b, hb, h⟩ => ?_, fun h => ⟨addr, h, rfl⟩⟩
  have h4 : 0x4000 ≤ b.toNat := by
    rcases mem_clearedAtPowerUp.1 hb with h | rfl | rfl
    · exact h.1
    · simp
    · simp
  rwa [(cellOf_eq_own_iff h4).1 h]

/-- Memory after `PowerUp`: zero at the cleared addresses, as before elsewhere (R290). -/
theorem powerUp_load_cleared {s : State} (h : Memory.wf s.mem) {addr : Word} (ha : addr ∈ clearedAtPowerUp) :
    s.powerUp.load addr = 0x00#8 := by
  rw [State.load_congr (powerUp_mem s)]
  exact (storeZeros_load clearedAtPowerUp (s := powerUpRegisters s) h addr).1 (cellOf_cleared.2 ha)

theorem powerUp_load_kept {s : State} (h : Memory.wf s.mem) {addr : Word} (ha : addr ∉ clearedAtPowerUp) :
    s.powerUp.load addr = s.load addr := by
  rw [State.load_congr (powerUp_mem s)]
  exact (storeZeros_load clearedAtPowerUp (s := powerUpRegisters s) h addr).2
    fun b hb he => ha (cellOf_cleared.1 ⟨b, hb, he⟩)

end Sys2Proof.Machine
end

