-- ==== Sys2Proof/Tests/Slice0.lean ====
section
/-! SUPPORT. The author's tests: words decoded by hand from the spec's tables, the checks refusing ill-formed host input, one step
of each instruction on the spec's worked examples, and a witness for the hypotheses of each obligation. Every expected value is
the spec's (the rule is named), none is the model's own answer. -/

namespace Sys2Proof.Tests

open Sys2Proof.Machine

/-! ### Helpers -/

/-- A state with the given registers and memory image; the observer and the records are those of `State.reset`. -/
def cpu (a x y sp p : Byte) (pc : Word) (image : List (Word × Byte)) : State :=
  { State.reset.loadImage image with a := a, x := x, y := y, sp := sp, p := p, pc := pc }

/-- What a step leaves, read by `f`; none if it does not complete. -/
def after {α : Type} (s : State) (f : State → α) : Option α :=
  match step s with
  | .next t => some (f t)
  | .fault _ => none
  | .refused _ => none

/-! ### Decoding: words written out from R71, R74 and R81, one or more for each family -/

/-- ADC #$34 is 69 34 (R75). -/
theorem test_decode_adc_imm : decodeTableWord 16 0x3469 = some (.adcImm 0x34) := by decide

/-- SBC $0200,Y is F9 00 02. -/
theorem test_decode_sbc_absy : decodeTableWord 24 0x0200F9 = some (.sbcAbsy 0x0200) := by decide

/-- AND #$0F is 29 0F. -/
theorem test_decode_and_imm : decodeTableWord 16 0x0F29 = some (.andImm 0x0F) := by decide

/-- CMP ($20),Y is D1 20. -/
theorem test_decode_cmp_indy : decodeTableWord 16 0x20D1 = some (.cmpIndy 0x20) := by decide

/-- BIT $1234 is 2C 34 12. -/
theorem test_decode_bit_abs : decodeTableWord 24 0x12342C = some (.bitAbs 0x1234) := by decide

/-- ASL A is 0A (R81). -/
theorem test_decode_asl_acc : decodeTableWord 8 0x0A = some (.aslAcc) := by decide

/-- ROR $0200,X is 7E 00 02 (R174). -/
theorem test_decode_ror_absx : decodeTableWord 24 0x02007E = some (.rorAbsx 0x0200) := by decide

/-- DEC $10,X is D6 10. -/
theorem test_decode_dec_zpx : decodeTableWord 16 0x10D6 = some (.decZpx 0x10) := by decide

/-- LDA ($FB,X) is A1 FB (R81). -/
theorem test_decode_lda_indx : decodeTableWord 16 0xFBA1 = some (.ldaIndx 0xFB) := by decide

/-- LDX $10,Y is B6 10 (R81). -/
theorem test_decode_ldx_zpy : decodeTableWord 16 0x10B6 = some (.ldxZpy 0x10) := by decide

/-- STA $0200,X is 9D 00 02. -/
theorem test_decode_sta_absx : decodeTableWord 24 0x02009D = some (.staAbsx 0x0200) := by decide

/-- TXS is 9A. -/
theorem test_decode_txs : decodeTableWord 8 0x9A = some (.txs) := by decide

/-- BNE with displacement F7 is D0 F7 (R81). -/
theorem test_decode_bne : decodeTableWord 16 0xF7D0 = some (.bne 0xF7) := by decide

/-- JMP ($40FF) is 6C FF 40 (R81). -/
theorem test_decode_jmp_ind : decodeTableWord 24 0x40FF6C = some (.jmpInd 0x40FF) := by decide

/-- JSR $9000 is 20 00 90 (R220). -/
theorem test_decode_jsr : decodeTableWord 24 0x900020 = some (.jsr 0x9000) := by decide

/-- PHA is 48. -/
theorem test_decode_pha : decodeTableWord 8 0x48 = some (.pha) := by decide

/-- SED is F8. -/
theorem test_decode_sed : decodeTableWord 8 0xF8 = some (.sed) := by decide

/-- BRK is 00 (R75). -/
theorem test_decode_brk : decodeTableWord 8 0x00 = some (.brk) := by decide

/-- 0xFF (R75) and 0x7A, the PLY of other parts (R76), are unmapped. -/
theorem test_decode_unmapped : decodeTableWord 8 0xFF = none ∧ decodeTableWord 8 0x7A = none := by decide

/-- Operand bytes the word does not give are zeros, and bits above `nbits` are dropped. -/
theorem test_decode_short_word : decodeTableWord 8 0x3469 = some (.adcImm 0x00) := by decide

/-! ### Well-formedness: each check accepts one term and refuses another -/

/-- A tuple without the operand its format needs (R83). -/
theorem test_operandPresent : (Format.mode .imm).operandPresent none = false ∧ (Format.mode .imm).operandPresent (some 1) = true ∧
    Format.implied.operandPresent none = true := by decide

/-- Both and neither of `onRead` and `onWrite` (R276). -/
theorem test_oneAccess : MemoryRequest.oneAccess ⟨0x10, some 1, none, none, true, true⟩ = false ∧
    MemoryRequest.oneAccess ⟨0x10, some 1, none, none, false, false⟩ = false ∧
    MemoryRequest.oneAccess ⟨0x10, some 1, none, none, true, false⟩ = true := by decide

/-- Both predicate forms, neither, and one bound alone (R276). -/
theorem test_onePredicate : MemoryRequest.onePredicate ⟨0x10, some 1, some 1, some 2, false, true⟩ = false ∧
    MemoryRequest.onePredicate ⟨0x10, none, none, none, false, true⟩ = false ∧
    MemoryRequest.onePredicate ⟨0x10, none, some 1, none, false, true⟩ = false ∧
    MemoryRequest.onePredicate ⟨0x10, none, some 1, some 2, false, true⟩ = true := by decide

/-- The two checks together. -/
theorem test_memoryRequest_wellFormed : MemoryRequest.wellFormed ⟨0x10, some 1, none, none, true, true⟩ = false ∧
    MemoryRequest.wellFormed ⟨0x10, none, some 1, none, false, true⟩ = false ∧
    MemoryRequest.wellFormed ⟨0x10, some 1, none, none, false, true⟩ = true := by decide

/-- Both and neither form of `breakOn` (R276). -/
theorem test_breakOn_wellFormed : BreakOnRequest.wellFormed ⟨some 3, true⟩ = false ∧
    BreakOnRequest.wellFormed ⟨none, false⟩ = false ∧ BreakOnRequest.wellFormed ⟨none, true⟩ = true := by decide

/-! ### One step of each instruction, from the worked examples of its rule -/

/-- R151: A=12, C=0, 69 34. -/
theorem test_adc_no_carry :
    after (cpu 0x12 0x00 0x00 0xFD 0x34 0x8000 [(0x8000, 0x69), (0x8001, 0x34)])
      (fun t => (t.a, t.p, t.pc)) = some (0x46, 0x34, 0x8002) := by decide

/-- R151: A=90, C=1, 69 83: C=1, V=1. -/
theorem test_adc_carry_overflow :
    after (cpu 0x90 0x00 0x00 0xFD 0x35 0x8000 [(0x8000, 0x69), (0x8001, 0x83)])
      (fun t => (t.a, t.p)) = some (0x14, 0x75) := by decide

/-- R152: A=46, C=0, E9 34: C=1. -/
theorem test_sbc_round_trip :
    after (cpu 0x46 0x00 0x00 0xFD 0x34 0x8000 [(0x8000, 0xE9), (0x8001, 0x34)])
      (fun t => (t.a, t.p)) = some (0x12, 0x35) := by decide

/-- R152: A=10, m=20, C=0: result F0, C=0, N=1, V=1. -/
theorem test_sbc_same_signs :
    after (cpu 0x10 0x00 0x00 0xFD 0x34 0x8000 [(0x8000, 0xE9), (0x8001, 0x20)])
      (fun t => (t.a, t.p)) = some (0xF0, 0xF4) := by decide

/-- R153: A=F0, 29 0F: Z=1. -/
theorem test_and :
    after (cpu 0xF0 0x00 0x00 0xFD 0x34 0x8000 [(0x8000, 0x29), (0x8001, 0x0F)])
      (fun t => (t.a, t.p)) = some (0x00, 0x36) := by decide

/-- R154: A=01, 09 80: N=1. -/
theorem test_ora :
    after (cpu 0x01 0x00 0x00 0xFD 0x34 0x8000 [(0x8000, 0x09), (0x8001, 0x80)])
      (fun t => (t.a, t.p)) = some (0x81, 0xB4) := by decide

/-- R155: A=0F, 49 F0: N=1. -/
theorem test_eor :
    after (cpu 0x0F 0x00 0x00 0xFD 0x34 0x8000 [(0x8000, 0x49), (0x8001, 0xF0)])
      (fun t => (t.a, t.p)) = some (0xFF, 0xB4) := by decide

/-- R156: A=40, C9 40: C=1, Z=1, N=0. -/
theorem test_cmp_equal :
    after (cpu 0x40 0x00 0x00 0xFD 0x34 0x8000 [(0x8000, 0xC9), (0x8001, 0x40)])
      (fun t => (t.a, t.p)) = some (0x40, 0x37) := by decide

/-- R156: A=00, m=FF: result 01, C=0, Z=0, N=0. -/
theorem test_cmp_below :
    after (cpu 0x00 0x00 0x00 0xFD 0x34 0x8000 [(0x8000, 0xC9), (0x8001, 0xFF)])
      (fun t => (t.a, t.p)) = some (0x00, 0x34) := by decide

/-- R157: X=10, E0 0F: C=1, Z=0, N=0. -/
theorem test_cpx :
    after (cpu 0x00 0x10 0x00 0xFD 0x34 0x8000 [(0x8000, 0xE0), (0x8001, 0x0F)])
      (fun t => (t.x, t.p)) = some (0x10, 0x35) := by decide

/-- R158: Y=00, C0 80: C=0, Z=0, N=1. -/
theorem test_cpy :
    after (cpu 0x00 0x00 0x00 0xFD 0x34 0x8000 [(0x8000, 0xC0), (0x8001, 0x80)])
      (fun t => (t.y, t.p)) = some (0x00, 0xB4) := by decide

/-- R159: A=01, memory[10]=C0, 24 10: Z=1, V=1, N=1. -/
theorem test_bit :
    after (cpu 0x01 0x00 0x00 0xFD 0x34 0x8000 [(0x8000, 0x24), (0x8001, 0x10), (0x0010, 0xC0)])
      (fun t => (t.a, t.p)) = some (0x01, 0xF6) := by decide

/-- R171: A=81, 0A: C=1. -/
theorem test_asl :
    after (cpu 0x81 0x00 0x00 0xFD 0x34 0x8000 [(0x8000, 0x0A)])
      (fun t => (t.a, t.p, t.pc)) = some (0x02, 0x35, 0x8001) := by decide

/-- R172: A=FF, C=1, 4A. -/
theorem test_lsr :
    after (cpu 0xFF 0x00 0x00 0xFD 0x35 0x8000 [(0x8000, 0x4A)])
      (fun t => (t.a, t.p)) = some (0x7F, 0x35) := by decide

/-- R173: A=80, C=1, 2A. -/
theorem test_rol :
    after (cpu 0x80 0x00 0x00 0xFD 0x35 0x8000 [(0x8000, 0x2A)])
      (fun t => (t.a, t.p)) = some (0x01, 0x35) := by decide

/-- R174: A=01, C=1, 6A: N=1. -/
theorem test_ror_accumulator :
    after (cpu 0x01 0x00 0x00 0xFD 0x35 0x8000 [(0x8000, 0x6A)])
      (fun t => (t.a, t.p, t.lastWrite)) = some (0x80, 0xB5, none) := by decide

/-- R174: X=01, C=1, memory[0201]=02, 7E 00 02: C=0, N=1. -/
theorem test_ror_memory :
    after (cpu 0x00 0x01 0x00 0xFD 0x35 0x8000 [(0x8000, 0x7E), (0x8001, 0x00), (0x8002, 0x02), (0x0201, 0x02)])
      (fun t => (t.load 0x0201, t.p, t.lastWrite)) = some (0x81, 0xB4, some (0x0201, 0x81)) := by decide

/-- R175: memory[10]=FF, E6 10: Z=1. -/
theorem test_inc :
    after (cpu 0x00 0x00 0x00 0xFD 0x34 0x8000 [(0x8000, 0xE6), (0x8001, 0x10), (0x0010, 0xFF)])
      (fun t => (t.load 0x0010, t.p, t.lastWrite)) = some (0x00, 0x36, some (0x0010, 0x00)) := by decide

/-- R176: memory[10]=00, C6 10: N=1. -/
theorem test_dec :
    after (cpu 0x00 0x00 0x00 0xFD 0x34 0x8000 [(0x8000, 0xC6), (0x8001, 0x10), (0x0010, 0x00)])
      (fun t => (t.load 0x0010, t.p)) = some (0xFF, 0xB4) := by decide

/-- R177: X=FF, E8. -/
theorem test_inx :
    after (cpu 0x00 0xFF 0x00 0xFD 0x34 0x8000 [(0x8000, 0xE8)])
      (fun t => (t.x, t.p)) = some (0x00, 0x36) := by decide

/-- R178: Y=7F, C8. -/
theorem test_iny :
    after (cpu 0x00 0x00 0x7F 0xFD 0x34 0x8000 [(0x8000, 0xC8)])
      (fun t => (t.y, t.p)) = some (0x80, 0xB4) := by decide

/-- R179: X=00, CA. -/
theorem test_dex :
    after (cpu 0x00 0x00 0x00 0xFD 0x34 0x8000 [(0x8000, 0xCA)])
      (fun t => (t.x, t.p)) = some (0xFF, 0xB4) := by decide

/-- R180: Y=01, 88. -/
theorem test_dey :
    after (cpu 0x00 0x00 0x01 0xFD 0x34 0x8000 [(0x8000, 0x88)])
      (fun t => (t.y, t.p)) = some (0x00, 0x36) := by decide

/-- R191: A9 80. -/
theorem test_lda_immediate :
    after (cpu 0x00 0x00 0x00 0xFD 0x34 0x8000 [(0x8000, 0xA9), (0x8001, 0x80)])
      (fun t => (t.a, t.p, t.pc)) = some (0x80, 0xB4, 0x8002) := by decide

/-- R191, R125: ABSY with operand FFFF and Y=2 reads address 0001, in another page. -/
theorem test_lda_absy_wraps :
    after (cpu 0x00 0x00 0x02 0xFD 0x34 0x8000 [(0x8000, 0xB9), (0x8001, 0xFF), (0x8002, 0xFF), (0x0001, 0x5A)])
      (fun t => (t.a, t.lastExtraCycles)) = some (0x5A, 1) := by decide

/-- R192: Y=02, memory[0001]=80, B6 FF. -/
theorem test_ldx_zpy_wraps :
    after (cpu 0x00 0x00 0x02 0xFD 0x34 0x8000 [(0x8000, 0xB6), (0x8001, 0xFF), (0x0001, 0x80)])
      (fun t => (t.x, t.p)) = some (0x80, 0xB4) := by decide

/-- R193: X=10, memory[0310]=01, BC 00 03. -/
theorem test_ldy_absx :
    after (cpu 0x00 0x10 0x00 0xFD 0x34 0x8000 [(0x8000, 0xBC), (0x8001, 0x00), (0x8002, 0x03), (0x0310, 0x01)])
      (fun t => (t.y, t.pc, t.lastExtraCycles)) = some (0x01, 0x8003, 0) := by decide

/-- R194: A=11, Y=FF, memory[20]=01, memory[21]=03, 91 20. -/
theorem test_sta_indy :
    after (cpu 0x11 0x00 0xFF 0xFD 0x34 0x8000 [(0x8000, 0x91), (0x8001, 0x20), (0x0020, 0x01), (0x0021, 0x03)])
      (fun t => (t.load 0x0400, t.p)) = some (0x11, 0x34) := by decide

/-- R194: A=AB, 8D 01 08 is visible at 0001, 0801, 1001, 1801. -/
theorem test_sta_mirror :
    after (cpu 0xAB 0x00 0x00 0xFD 0x34 0x8000 [(0x8000, 0x8D), (0x8001, 0x01), (0x8002, 0x08)])
      (fun t => (t.load 0x0001, t.load 0x1001, t.load 0x1801, t.lastWrite)) = some (0xAB, 0xAB, 0xAB, some (0x0801, 0xAB)) := by decide

/-- R195: X=42, Y=01, 96 FF. -/
theorem test_stx :
    after (cpu 0x00 0x42 0x01 0xFD 0x34 0x8000 [(0x8000, 0x96), (0x8001, 0xFF)])
      (fun t => (t.load 0x0000, t.load 0x0100)) = some (0x42, 0x00) := by decide

/-- R196: Y=24, X=05, 94 10. -/
theorem test_sty :
    after (cpu 0x00 0x05 0x24 0xFD 0x34 0x8000 [(0x8000, 0x94), (0x8001, 0x10)])
      (fun t => t.load 0x0015) = some 0x24 := by decide

/-- R197: A=00, X=05, AA. -/
theorem test_tax :
    after (cpu 0x00 0x05 0x00 0xFD 0x34 0x8000 [(0x8000, 0xAA)])
      (fun t => (t.x, t.p)) = some (0x00, 0x36) := by decide

/-- R198: A=80, A8. -/
theorem test_tay :
    after (cpu 0x80 0x00 0x00 0xFD 0x34 0x8000 [(0x8000, 0xA8)])
      (fun t => (t.y, t.p)) = some (0x80, 0xB4) := by decide

/-- R199: X=7F, Z=1, N=1 before, 8A. -/
theorem test_txa :
    after (cpu 0x00 0x7F 0x00 0xFD 0xB6 0x8000 [(0x8000, 0x8A)])
      (fun t => (t.a, t.p)) = some (0x7F, 0x34) := by decide

/-- R200: Y=FF, 98. -/
theorem test_tya :
    after (cpu 0x00 0x00 0xFF 0xFD 0x34 0x8000 [(0x8000, 0x98)])
      (fun t => (t.a, t.p)) = some (0xFF, 0xB4) := by decide

/-- R201: SP=FD, BA. -/
theorem test_tsx :
    after (cpu 0x00 0x00 0x00 0xFD 0x34 0x8000 [(0x8000, 0xBA)])
      (fun t => (t.x, t.p)) = some (0xFD, 0xB4) := by decide

/-- R202: X=FF, SP=FD, 9A. -/
theorem test_txs :
    after (cpu 0x00 0xFF 0x00 0xFD 0x34 0x8000 [(0x8000, 0x9A)])
      (fun t => (t.sp, t.p)) = some (0xFF, 0x34) := by decide

/-- R211: PC=8000, C=0, 90 FD. -/
theorem test_bcc :
    after (cpu 0x00 0x00 0x00 0xFD 0x34 0x8000 [(0x8000, 0x90), (0x8001, 0xFD)])
      (fun t => (t.pc, t.lastExtraCycles)) = some (0x7FFF, 2) := by decide

/-- R212: PC=80F0, C=1, B0 7F. -/
theorem test_bcs :
    after (cpu 0x00 0x00 0x00 0xFD 0x35 0x80F0 [(0x80F0, 0xB0), (0x80F1, 0x7F)])
      (fun t => (t.pc, t.lastExtraCycles)) = some (0x8171, 2) := by decide

/-- R213: PC=8010, Z=1, F0 FC. -/
theorem test_beq :
    after (cpu 0x00 0x00 0x00 0xFD 0x36 0x8010 [(0x8010, 0xF0), (0x8011, 0xFC)])
      (fun t => (t.pc, t.lastExtraCycles)) = some (0x800E, 1) := by decide

/-- R214: PC=8000, Z=0, D0 05. -/
theorem test_bne_taken :
    after (cpu 0x00 0x00 0x00 0xFD 0x34 0x8000 [(0x8000, 0xD0), (0x8001, 0x05)])
      (fun t => (t.pc, t.lastExtraCycles)) = some (0x8007, 1) := by decide

/-- R214: with Z=1. -/
theorem test_bne_not_taken :
    after (cpu 0x00 0x00 0x00 0xFD 0x36 0x8000 [(0x8000, 0xD0), (0x8001, 0x05)])
      (fun t => (t.pc, t.lastExtraCycles)) = some (0x8002, 0) := by decide

/-- R215: PC=00FD, N=1, 30 01. -/
theorem test_bmi :
    after (cpu 0x00 0x00 0x00 0xFD 0xB4 0x00FD [(0x00FD, 0x30), (0x00FE, 0x01)])
      (fun t => (t.pc, t.lastExtraCycles)) = some (0x0100, 2) := by decide

/-- R216: PC=FFFD, N=0, 10 7F. -/
theorem test_bpl_wraps :
    after (cpu 0x00 0x00 0x00 0xFD 0x34 0xFFFD [(0xFFFD, 0x10), (0xFFFE, 0x7F)])
      (fun t => (t.pc, t.lastExtraCycles)) = some (0x007E, 2) := by decide

/-- R217: PC=8000, V=1, 50 10. -/
theorem test_bvc :
    after (cpu 0x00 0x00 0x00 0xFD 0x74 0x8000 [(0x8000, 0x50), (0x8001, 0x10)])
      (fun t => (t.pc, t.lastExtraCycles)) = some (0x8002, 0) := by decide

/-- R218: PC=8000, V=1, 70 80. -/
theorem test_bvs :
    after (cpu 0x00 0x00 0x00 0xFD 0x74 0x8000 [(0x8000, 0x70), (0x8001, 0x80)])
      (fun t => (t.pc, t.lastExtraCycles)) = some (0x7F82, 2) := by decide

/-- R219: 4C 34 12. -/
theorem test_jmp_abs :
    after (cpu 0x00 0x00 0x00 0xFD 0x34 0x8000 [(0x8000, 0x4C), (0x8001, 0x34), (0x8002, 0x12)])
      (fun t => t.pc) = some 0x1234 := by decide

/-- R120: 40FF=CA, 4100=A4, 4000=5F, JMP ($40FF) goes to 5FCA. -/
theorem test_jmp_ind_page_bug :
    after (cpu 0x00 0x00 0x00 0xFD 0x34 0x8000 [(0x8000, 0x6C), (0x8001, 0xFF), (0x8002, 0x40), (0x40FF, 0xCA), (0x4100, 0xA4), (0x4000, 0x5F)])
      (fun t => t.pc) = some 0x5FCA := by decide

/-- R220: PC=8003, SP=FD, 20 00 90. -/
theorem test_jsr :
    after (cpu 0x00 0x00 0x00 0xFD 0x34 0x8003 [(0x8003, 0x20), (0x8004, 0x00), (0x8005, 0x90)])
      (fun t => (t.pc, t.sp, t.load 0x01FC, t.load 0x01FD, t.lastWrite)) = some (0x9000, 0xFB, 0x05, 0x80, some (0x01FD, 0x80)) := by decide

/-- R220: SP=00, low byte at 01FF, high byte at 0100, SP=FE. -/
theorem test_jsr_stack_wraps :
    after (cpu 0x00 0x00 0x00 0x00 0x34 0x8003 [(0x8003, 0x20), (0x8004, 0x00), (0x8005, 0x90)])
      (fun t => (t.sp, t.load 0x01FF, t.load 0x0100, t.load 0x00FF)) = some (0xFE, 0x05, 0x80, 0x00) := by decide

/-- R221: SP=FB, memory[01FC]=05, memory[01FD]=80, 60. -/
theorem test_rts :
    after (cpu 0x00 0x00 0x00 0xFB 0x34 0x8000 [(0x8000, 0x60), (0x01FC, 0x05), (0x01FD, 0x80)])
      (fun t => (t.pc, t.sp)) = some (0x8006, 0xFD) := by decide

/-- R231: A=77, SP=FD, 48. -/
theorem test_pha :
    after (cpu 0x77 0x00 0x00 0xFD 0x34 0x8000 [(0x8000, 0x48)])
      (fun t => (t.load 0x01FD, t.sp, t.lastWrite)) = some (0x77, 0xFC, some (0x01FD, 0x77)) := by decide

/-- R232: P=C3, SP=FD, 08. -/
theorem test_php :
    after (cpu 0x00 0x00 0x00 0xFD 0xC3 0x8000 [(0x8000, 0x08)])
      (fun t => (t.load 0x01FD, t.sp, t.p)) = some (0xC3, 0xFC, 0xC3) := by decide

/-- R233: SP=FC, memory[01FD]=00, 68. -/
theorem test_pla :
    after (cpu 0x05 0x00 0x00 0xFC 0xB4 0x8000 [(0x8000, 0x68), (0x01FD, 0x00)])
      (fun t => (t.a, t.sp, t.p)) = some (0x00, 0xFD, 0x36) := by decide

/-- R234: P=C3, SP=FC, memory[01FD]=08, 28. -/
theorem test_plp :
    after (cpu 0x00 0x00 0x00 0xFC 0xC3 0x8000 [(0x8000, 0x28), (0x01FD, 0x08)])
      (fun t => (t.p, t.sp)) = some (0x08, 0xFD) := by decide

/-- R235: P=FF, 18. -/
theorem test_clc :
    after (cpu 0x00 0x00 0x00 0xFD 0xFF 0x8000 [(0x8000, 0x18)])
      (fun t => t.p) = some 0xFE := by decide

/-- R236: P=00, 38. -/
theorem test_sec :
    after (cpu 0x00 0x00 0x00 0xFD 0x00 0x8000 [(0x8000, 0x38)])
      (fun t => t.p) = some 0x01 := by decide

/-- R237: P=FF, 58. -/
theorem test_cli :
    after (cpu 0x00 0x00 0x00 0xFD 0xFF 0x8000 [(0x8000, 0x58)])
      (fun t => t.p) = some 0xFB := by decide

/-- R238: P=00, 78. -/
theorem test_sei :
    after (cpu 0x00 0x00 0x00 0xFD 0x00 0x8000 [(0x8000, 0x78)])
      (fun t => t.p) = some 0x04 := by decide

/-- R239: P=FF, D8. -/
theorem test_cld :
    after (cpu 0x00 0x00 0x00 0xFD 0xFF 0x8000 [(0x8000, 0xD8)])
      (fun t => t.p) = some 0xF7 := by decide

/-- R240: P=00, F8. -/
theorem test_sed :
    after (cpu 0x00 0x00 0x00 0xFD 0x00 0x8000 [(0x8000, 0xF8)])
      (fun t => t.p) = some 0x08 := by decide

/-- R241: P=FF, B8. -/
theorem test_clv :
    after (cpu 0x00 0x00 0x00 0xFD 0xFF 0x8000 [(0x8000, 0xB8)])
      (fun t => t.p) = some 0xBF := by decide

/-- R242: PC=FFFF, EA. -/
theorem test_nop_wraps :
    after (cpu 0x00 0x00 0x00 0xFD 0x34 0xFFFF [(0xFFFF, 0xEA)])
      (fun t => (t.pc, t.lastExecuted, t.lastWrite)) = some (0x0000, some ⟨0xEA, none⟩, none) := by decide

/-- R243: P=A3, SP=FF, PC=4023, vector 2A3F, 00. -/
theorem test_brk_source :
    after (cpu 0x00 0x00 0x00 0xFF 0xA3 0x4023 [(0x4023, 0x00), (0xFFFE, 0x3F), (0xFFFF, 0x2A)])
      (fun t => (t.sp, t.pc, t.p, t.load 0x01FD, t.load 0x01FE, t.load 0x01FF)) = some (0xFD, 0x2A3F, 0xB3, 0xB3, 0x40, 0x25) := by decide

/-- R243: P=00, SP=01, PC=FFFF, memory[FFFE]=00, memory[FFFF]=80, the tuple 00 from the host. -/
theorem test_brk_wraps :
    (match executeTuple 0x00 none (cpu 0x00 0x00 0x00 0x01 0x00 0xFFFF [(0xFFFF, 0x80)]) with
      | .next t => some (t.sp, t.p, t.pc, t.load 0x0101, t.load 0x0100, t.load 0x01FF, t.lastWrite)
      | .fault _ => none
      | .refused _ => none) = some (0xFF, 0x10, 0x8000, 0x01, 0x00, 0x10, some (0x01FF, 0x10)) := by decide

/-- R244: SP=FC, memory[01FD]=CB, memory[01FE]=25, memory[01FF]=40, 40. -/
theorem test_rti :
    after (cpu 0x00 0x00 0x00 0xFC 0x34 0x8000 [(0x8000, 0x40), (0x01FD, 0xCB), (0x01FE, 0x25), (0x01FF, 0x40)])
      (fun t => (t.p, t.pc, t.sp)) = some (0xCB, 0x4025, 0xFF) := by decide

/-- R250, R251: the unknown opcode FF. -/
theorem test_unknown_instruction : step (cpu 0 0 0 0xFD 0x34 0x8000 [(0x8000, 0xFF)]) = .fault (.unknownInstruction 0xFF) := rfl

/-- R298: A9 E8 8D 07 80 stores an INX over a later NOP; here the store and the fetch at 8007 after it. -/
theorem test_store_is_fetched :
    after ((cpu 0 1 0 0xFD 0x34 0x8007 [(0x8007, 0xEA)]).store 0x8007 0xE8) (fun t => (t.x, t.pc)) = some (0x02, 0x8008) := by decide

/-- R83, R126: a host tuple with a surplus operand and one with a wide operand. -/
theorem test_execute_tuple :
    executeTuple 0xEA (some 0x1234) (cpu 0 0 0 0xFD 0x34 0x8000 []) = executeTuple 0xEA none (cpu 0 0 0 0xFD 0x34 0x8000 []) ∧
    executeTuple 0x69 (some 0x134) (cpu 0 0 0 0xFD 0x34 0x8000 []) = executeTuple 0x69 (some 0x34) (cpu 0 0 0 0xFD 0x34 0x8000 []) ∧
    executeTuple 0x69 none (cpu 0 0 0 0xFD 0x34 0x8000 []) = .refused (.missingOperand 0x69) := ⟨rfl, rfl, rfl⟩

/-! ### Power-up, reset, the host's queries -/

/-- R291: A=0F, X=05, SP=FD, P=33, reset vector 8000. -/
theorem test_warm_reset :
    (fun t : State => (t.a, t.x, t.sp, t.p, t.pc))
      (cpu 0x0F 0x05 0 0xFD 0x33 0x1234 [(0xFFFD, 0x80)]).warmReset = (0x0F, 0x05, 0xFA, 0x37, 0x8000) := by decide

/-- R291: SP=01, P=00. -/
theorem test_warm_reset_wraps :
    (fun t : State => (t.sp, t.p)) (cpu 0 0 0 0x01 0x00 0 []).warmReset = (0xFE, 0x04) := by decide

/-- R290, R294: the boot of an image; 4013 is cleared, 4014 is not. -/
theorem test_boot :
    (fun t : State => (t.p, t.sp, t.pc, t.load 0x4013, t.load 0x4014))
      (State.boot [(0xFFFC, 0x00), (0xFFFD, 0x80), (0x4013, 0x55), (0x4014, 0x66)]) = (0x34, 0xFD, 0x8000, 0x00, 0x66) := by
  decide

/-- The reset state's memory has the canonical form. -/
theorem reset_wf : Memory.wf State.reset.mem := Memory.wf_nil

/-- The host's two questions on one table row: the decoder gives ADC #$34, and `step` runs it first after reset. -/
theorem test_withFetchWord : decodeTableWord 16 0x3469 = some (.adcImm 0x34) ∧
    after (State.reset.withFetchWord 16 0x3469) (fun t => (t.a, t.pc)) = some (0x34, 0x0002) := by decide

/-- A three-byte row whose operand bits the table leaves out: zeros. -/
theorem test_withFetchWord_short : after (State.reset.withFetchWord 8 0x4C) (fun t => (t.lastExecuted, t.pc)) =
    some (some ⟨0x4C, some 0x0000⟩, 0x0000) := by decide

/-- R273: a pause after one instruction at an address breakpoint (R269). -/
theorem test_pause_at_address :
    run 3 ((cpu 0 0 0 0xFD 0x34 0x8000 [(0x8000, 0xEA)]).register (.address 0x8001)) =
      .paused ⟨0x8001, true, some ⟨0xEA, none⟩, ⟨0, 0, 0, 0xFD, 0x34, 0x8001⟩⟩
        { cpu 0 0 0 0xFD 0x34 0x8001 [(0x8000, 0xEA)] with
          lastExecuted := some ⟨0xEA, none⟩, lastWrite := none,
          obs := { run := .paused, started := true, breakpoints := [.address 0x8001], retired := 1, resetPending := false } } := by
  decide

/-! ### Witnesses: concrete states and operands that meet the hypotheses of each obligation together -/

/-- The state most witnesses use: memory with code and data, in canonical form. -/
def sample : State :=
  cpu 0x46 0x02 0x03 0xFD 0xB5 0x8000 [(0x0010, 0x7F), (0x8000, 0x69), (0x8001, 0x34)]

theorem sample_wf : Memory.wf sample.mem := by decide

theorem witness_UnmappedOpcodesRaise :
    (cpu 0 0 0 0xFD 0x34 0x8000 [(0x8000, 0x02)]).load 0x8000 ∈ unmappedOpcodes ∧ (0xFF#8) ∈ unmappedOpcodes ∧
    sample.load sample.pc ∉ unmappedOpcodes := by decide

theorem witness_StepRunsDecodedInstruction :
    (∀ (k : Nat) (h : k < (encode (.adcImm 0x34)).length),
      sample.load (sample.pc + BitVec.ofNat 16 k) = (encode (.adcImm 0x34))[k]) ∧
    (after sample fun t => t.a) = some 0x7B := by decide

theorem witness_ExecuteOfFetchedTupleIsStep : sample.fetch = .ok (.adcImm 0x34) := by decide

theorem witness_HostTupleIsMaskedOrRefused :
    Instr.nop.format.operandBytes = 0 ∧ (Instr.adcImm 0x00).format.operandBytes = 1 ∧ (Instr.jsr 0x0000).format.operandBytes = 2 ∧
    0 < (Instr.adcImm 0x00).format.operandBytes := by decide

/-- The three kinds of alias at the edges of their ranges, and an address that is none. -/
theorem witness_StoreIsSeenThroughMirrors :
    Memory.wf sample.mem ∧ (0x1FFF#16).toNat ≤ 0x1FFF ∧ (0x1FFF#16).toNat % 0x800 = (0x07FF#16).toNat % 0x800 ∧
    (sample.store 0x07FF 0xAB).load 0x1FFF = 0xAB ∧ (0x2000#16).toNat % 8 = (0x3FF8#16).toNat % 8 ∧
    (sample.store 0x2000 0xAB).load 0x3FF8 = 0xAB ∧ (sample.store 0x2000 0xAB).load 0x0000 = sample.load 0x0000 ∧
    (sample.store 0x4000 0xAB).load 0x4000 = 0xAB ∧ (sample.store 0x4000 0xAB).load 0x3FF8 = sample.load 0x3FF8 := by decide

theorem witness_WordAccessIsTwoBytes :
    Memory.wf sample.mem ∧ cellOf 0x0005 ≠ cellOf 0xFFFF ∧ cellOf 0x0005 ≠ cellOf (0xFFFF + 1#16) := by decide

theorem witness_RegisterWritesAreMasked : RegName.a ≠ RegName.pc := by decide

theorem witness_FlagWriteTouchesOneBit : Flag.carry ≠ Flag.negative := by decide

theorem witness_PowerUpFixesTheState : Memory.wf sample.mem ∧ (0x4000 ≤ (0x4013#16).toNat ∧ (0x4013#16).toNat ≤ 0x4013) ∧
    ¬ ((0x4000 ≤ (0x4014#16).toNat ∧ (0x4014#16).toNat ≤ 0x4013) ∨ 0x4014#16 = 0x4015#16 ∨ 0x4014#16 = 0x4017#16) := by decide

theorem witness_ResetKeepsRegisters : Memory.wf sample.mem ∧ (0x4017#16) ≠ 0x4015#16 := by decide

theorem witness_ResetStateIsPowerUp : State.reset.mem = [] ∧ State.reset.obs.run = .running ∧
    State.reset.obs.started = false ∧ State.reset.obs.breakpoints = [] ∧ State.reset.obs.retired = 0 := by decide

theorem witness_PowerUpEstablishesInvariant : Memory.wf sample.mem := sample_wf

/-- A state with the invariant from which a step completes. -/
theorem witness_StepKeepsInvariant : ∃ s t, Inv s ∧ step s = .next t := by
  refine ⟨{ sample with lastExecuted := none, lastExtraCycles := 0, lastWrite := none }, _, ⟨sample_wf, by decide, ?_, ?_⟩, rfl⟩
  · intro e h; cases h
  · intro addr v h; cases h

/-- The same state, and a host operation that is not turned away. -/
theorem witness_HostOperationsKeepInvariant : ∃ s t, Inv s ∧ applyHostOp (.store 0x0801 0xAB) s = .next t := by
  refine ⟨{ sample with lastExecuted := none, lastExtraCycles := 0, lastWrite := none }, _, ⟨sample_wf, by decide, ?_, ?_⟩, rfl⟩
  · intro e h; cases h
  · intro addr v h; cases h

/-- Every form of an instruction meets the mnemonic premises; one form of each of the grouped statements. -/
theorem witness_AdcAddsWithCarry : (Instr.adcImm 0x34).mnemonic = .adc := by decide

theorem witness_AdcOverflowIsSignedOverflow : (Instr.adcZp 0x10).mnemonic = .adc := by decide

theorem witness_SbcAddsTwosComplement : (Instr.sbcIndy 0x20).mnemonic = .sbc := by decide

theorem witness_LogicWritesA : (Instr.andImm 0x0F).mnemonic = .and ∧ (Instr.oraZp 0x10).mnemonic = .ora ∧
    (Instr.eorAbsx 0x0200).mnemonic = .eor := by decide

theorem witness_ComparesSetFlagsOnly : (Instr.cmpImm 0x40).mnemonic = .cmp ∧ (Instr.cpxZp 0x10).mnemonic = .cpx ∧
    (Instr.cpyAbs 0x0200).mnemonic = .cpy := by decide

theorem witness_BitTestsMemory : (Instr.bitZp 0x10).mnemonic = .bit := by decide

theorem witness_LeftShiftsModifyOperand : Memory.wf sample.mem ∧ (Instr.aslAcc).mnemonic = .asl ∧
    (Instr.rolAbsx 0x0200).mnemonic = .rol ∧ storeAddress .aslAcc sample = none ∧
    storeAddress (.rolAbsx 0x0200) sample = some 0x0202 := by decide

theorem witness_RightShiftsModifyOperand : Memory.wf sample.mem ∧ (Instr.lsrZp 0x10).mnemonic = .lsr ∧
    (Instr.rorAcc).mnemonic = .ror := by decide

theorem witness_IncDecModifyMemory : Memory.wf sample.mem ∧ (Instr.incZp 0x10).mnemonic = .inc ∧
    (Instr.decAbs 0x0010).mnemonic = .dec := by decide

theorem witness_LoadsTransferTheOperand : (Instr.ldaIndx 0xFB).mnemonic = .lda ∧ (Instr.ldxZpy 0x10).mnemonic = .ldx ∧
    (Instr.ldyAbsx 0x0300).mnemonic = .ldy := by decide

theorem witness_StoresWriteTheRegister : Memory.wf sample.mem ∧ (Instr.staIndy 0x20).mnemonic = .sta ∧
    (Instr.stxZpy 0xFF).mnemonic = .stx ∧ (Instr.styZpx 0x10).mnemonic = .sty := by decide

/-- Each branch condition is met and missed: `sample` has C and N set, Z and V clear. -/
theorem witness_BranchesFollowOneFlag : sample.flag .carry = true ∧ sample.flag .negative = true ∧ sample.flag .zero = false ∧
    sample.flag .overflow = false := by decide

theorem witness_JsrStoresReturnAddress : Memory.wf sample.mem := sample_wf

theorem witness_RtsReturnsFromJsr : Memory.wf sample.mem := sample_wf

theorem witness_PushesStoreAtSP : Memory.wf sample.mem := sample_wf

theorem witness_BrkEntersTheTrap : Memory.wf sample.mem := sample_wf

theorem witness_RtiDoesNotUndoBrk : Memory.wf sample.mem := sample_wf

/-- A flag that an instruction is not listed for. -/
theorem witness_FlagsWrittenOnlyAsListed : (Instr.incZp 0x10).mnemonic ∉ flagWriters .carry := by decide

theorem witness_RegistersWrittenOnlyAsListed :
    (∃ t, exec (.staZp 0x10) sample = .next t) ∧ (Instr.staZp 0x10).mnemonic ∉ pcSetters := ⟨⟨_, rfl⟩, by decide⟩

/-- Each way a byte changes: a store, a read-modify-write, a push, and the lowest slots of JSR and BRK, there at SP = 0x00 so
that the slots wrap inside page 1. -/
theorem witness_MemoryChangedOnlyByStores :
    (∃ t, exec (.staZp 0x10) sample = .next t ∧ t.load 0x0010 ≠ sample.load 0x0010) ∧
    (∃ t, exec (.incZp 0x10) sample = .next t ∧ t.load 0x0010 ≠ sample.load 0x0010) ∧
    (∃ t, exec .pha sample = .next t ∧ t.load 0x01FD ≠ sample.load 0x01FD) ∧
    (∃ t, exec (.jsr 0x9000) (sample.setSP 0x00) = .next t ∧ t.load 0x01FF ≠ sample.load 0x01FF) ∧
    (∃ t, exec .brk (sample.setSP 0x00) = .next t ∧ t.load 0x01FE ≠ sample.load 0x01FE) :=
  ⟨⟨_, rfl, by decide⟩, ⟨_, rfl, by decide⟩, ⟨_, rfl, by decide⟩, ⟨_, rfl, by decide⟩, ⟨_, rfl, by decide⟩⟩

/-- Two states that differ in I, D, B and bit 5. -/
theorem witness_StorageBitsInfluenceNothing : (Instr.adcImm 0x34).mnemonic ≠ .php ∧ (Instr.adcImm 0x34).mnemonic ≠ .brk ∧
    SameButStorageBits sample (sample.setP 0x89) ∧ sample.p ≠ 0x89#8 :=
  ⟨by decide, by decide, ⟨rfl, by decide⟩, by decide⟩

theorem witness_PageCrossPenalty : (Instr.ldaAbsy 0xFFFF).format ≠ .mode .rel ∧ (Instr.ldaAbsy 0xFFFF).opcode ∈ pageCrossCheckSet := by
  decide

theorem witness_RecordsOfEveryInstruction : (Instr.nop).mnemonic ∉ stackStorers ∧ (Instr.aslAcc).mnemonic ∈ operandStorers ∧
    storeAddress .aslAcc sample = none ∧ (Instr.staZp 0x10).mnemonic ∈ operandStorers ∧
    storeAddress (.staZp 0x10) sample = some 0x0010 := by decide

theorem witness_StoresAreSeenByFetch : Memory.wf sample.mem ∧ (Instr.inx).opcode = 0xE8#8 ∧ cellOf 0x1807 = cellOf 0x0007 := by
  decide

/-- Both outcomes of a step, and a breakpoint that fires and one that does not. -/
theorem witness_DriveIterationPausesOnFiring : resetBreak sample = false ∧
    step (cpu 0 0 0 0xFD 0x34 0x8000 [(0x8000, 0xFF)]) = .fault (.unknownInstruction 0xFF) ∧
    (after sample fun t => (fires (.address 0x8002) t, fires (.address 0x8003) t)) = some (true, false) :=
  ⟨by decide, rfl, by decide⟩

theorem witness_ResetVectorBreakpointFiresFirst :
    driving (State.reset.register .resetVector) = false ∧ (State.reset.register .resetVector).obs.resetPending = true ∧
    .resetVector ∈ (State.reset.register .resetVector).obs.breakpoints := by decide

/-- A state for each of the two cases, and one request for each clause. -/
theorem witness_RegistrationAppendsOrRefuses : driving State.reset = false ∧ driving State.reset.startRun = true ∧
    MemoryRequest.wellFormed ⟨0x10, some 1, none, none, true, true⟩ = false ∧ BreakOnRequest.wellFormed ⟨none, false⟩ = false ∧
    (let r : MemoryRequest := ⟨0x10, some 1, none, none, false, true⟩; r.equalsTo = some 1 ∧ r.greaterThanOrEquals = none ∧
      r.lessThanOrEquals = none ∧ r.onWrite = !r.onRead) ∧
    (let r : MemoryRequest := ⟨0x10, none, some 1, some 2, true, false⟩; r.equalsTo = none ∧ r.greaterThanOrEquals = some 1 ∧
      r.lessThanOrEquals = some 2 ∧ r.onWrite = !r.onRead) := by decide

end Sys2Proof.Tests
end

/-! ### The small statements about registers and stack addresses -/

namespace Sys2Proof.Machine

/-- A register reads as what was written to it, masked to its width (R12). -/
theorem getRegister_setRegister_same (r : RegName) (v : Nat) (s : State) :
    getRegister r (setRegister r v s) = if r = .pc then v % 0x10000 else v % 0x100 := by
  cases r
  case pc => exact toWord_toNat v
  all_goals exact toByte_toNat_eq v

/-- A register write leaves the other registers alone (R12). -/
theorem getRegister_setRegister_other {q r : RegName} (h : q ≠ r) (v : Nat) (s : State) :
    getRegister q (setRegister r v s) = getRegister q s := by
  cases q <;> cases r
  case a.a | x.x | y.y | sp.sp | p.p | pc.pc => exact absurd rfl h
  all_goals rfl

/-- Settles O11: one lemma for the register written, one for the others. -/
theorem registerWritesAreMasked : Obligations.RegisterWritesAreMasked :=
  fun r _ v s => ⟨getRegister_setRegister_same r v s, fun h => getRegister_setRegister_other h v s⟩

/-- Settles O39: `stackAddr_toNat` at `SP` and its two neighbours modulo 256. -/
theorem stackStaysInPageOne : Obligations.StackStaysInPageOne := by
  intro sp
  simp only [stackAddr_toNat]
  refine ⟨trivial, ?_, ?_⟩
  · rw [BitVec.toNat_add, BitVec.toNat_ofNat]
  · rw [BitVec.toNat_sub, BitVec.toNat_ofNat]
    omega

/-! ### Common ground of the rules over all instructions -/

/-- `exec` has one answer, so what holds of the state it completes in holds of any next state. -/
theorem Completes.elim {i : Instr} {s t : State} {post : State → Prop} (h : Completes i s post)
    (ht : exec i s = .next t) : post t := by
  obtain ⟨u, hu, hpost⟩ := h
  cases ht.symm.trans hu
  exact hpost

theorem takenPenalty_le_two (w pc : Word) : takenPenalty w pc ≤ 2 := by
  unfold takenPenalty
  split <;> decide

/-- A branch, taken or not, changes nothing but `PC` and the records (R210). -/
theorem runBranch_completes {i : Instr} {f : Flag} {value : Bool} {w : Word} {s : State} {post : State → Prop}
    (h : ∀ pc n, n ≤ 2 → post ((s.beginExecute.setPC pc).record i n)) :
    ∃ t, runBranch i f value w s = .next t ∧ post t := by
  by_cases hf : s.flag f = value
  · exact ⟨_, runBranch_taken hf i w, h _ _ (takenPenalty_le_two w s.pc)⟩
  · exact ⟨_, runBranch_not_taken hf i w, h _ _ (Nat.zero_le 2)⟩

/-- A read-modify-write ends in a write of `A` or in a store at its store address. -/
theorem modifyEffect_cases (i : Instr) (op : Byte → State → Byte × State) (s : State) :
    (storeAddress i s = none ∧ modifyEffect i op s = (op s.a s).2.setA (op s.a s).1) ∨
      ∃ addr, storeAddress i s = some addr ∧
        modifyEffect i op s = (op (s.load addr) s).2.store addr (op (s.load addr) s).1 := by
  unfold modifyEffect
  split
  next h => exact .inl ⟨h, rfl⟩
  next addr h => exact .inr ⟨addr, h, rfl⟩

/-- A read-modify-write whose operation sets nothing but the flags leaves every register but `A` and `P` alone. -/
theorem modifyEffect_registers_kept {op : Byte → State → Byte × State} (hop : ∀ b t, ∃ p, (op b t).2 = t.setP p)
    (i : Instr) (s : State) :
    (modifyEffect i op s).x = s.x ∧ (modifyEffect i op s).y = s.y ∧ (modifyEffect i op s).sp = s.sp ∧
      (modifyEffect i op s).pc = s.pc := by
  obtain ⟨-, h⟩ | ⟨addr, -, h⟩ := modifyEffect_cases i op s
  · obtain ⟨p, hp⟩ := hop s.a s
    rw [h, hp]
    exact ⟨rfl, rfl, rfl, rfl⟩
  · obtain ⟨p, hp⟩ := hop (s.load addr) s
    rw [h, hp]
    exact ⟨rfl, rfl, rfl, rfl⟩

theorem modifyEffect_pc {op : Byte → State → Byte × State} (hop : ∀ b t, ∃ p, (op b t).2 = t.setP p) (i : Instr)
    (s : State) : (modifyEffect i op s).pc = s.pc := by
  obtain ⟨-, -, -, hpc⟩ := modifyEffect_registers_kept hop i s
  exact hpc

/-- A flag that its operation leaves alone is kept by a read-modify-write. -/
theorem modifyEffect_flag_kept {op : Byte → State → Byte × State} {f : Flag}
    (hop : ∀ b t, (op b t).2.flag f = t.flag f) (i : Instr) (s : State) : (modifyEffect i op s).flag f = s.flag f := by
  obtain ⟨-, h⟩ | ⟨addr, -, h⟩ := modifyEffect_cases i op s
  · rw [h, State.setA_flag, hop]
  · rw [h, State.store_flag, hop]

/-- INC and DEC have no accumulator form (R175, R176). -/
theorem storeAddress_of_incDec {i : Instr} (h : i.mnemonic ∈ [Mnemonic.inc, .dec]) (s : State) :
    ∃ addr, storeAddress i s = some addr := by
  have hacc : i.format ≠ .mode .acc :=
    of_decide_eq_true (forall_descriptors (P := fun d => decide (d.mnemonic ∈ [Mnemonic.inc, .dec] →
      d.format ≠ .mode .acc)) (by decide) i) h
  have hmod : i.mnemonic ∈ [Mnemonic.asl, .lsr, .rol, .ror, .inc, .dec] :=
    List.mem_append_right [Mnemonic.asl, .lsr, .rol, .ror] h
  exact Option.ne_none_iff_exists'.1 fun hn => hacc ((modifier_operand hmod s).1 hn).1

/-- A store instruction ends in a store at its store address. -/
theorem storeEffect_cases (i : Instr) (value : State → Byte) (s : State) :
    storeEffect i value s = s ∨ ∃ addr, storeAddress i s = some addr ∧ storeEffect i value s = s.store addr (value s) := by
  unfold storeEffect
  split
  next => exact .inl rfl
  next addr h => exact .inr ⟨addr, h, rfl⟩

/-- A store instruction leaves the registers alone. -/
theorem storeEffect_registers_kept (i : Instr) (value : State → Byte) (s : State) :
    (storeEffect i value s).a = s.a ∧ (storeEffect i value s).x = s.x ∧ (storeEffect i value s).y = s.y ∧
      (storeEffect i value s).sp = s.sp ∧ (storeEffect i value s).p = s.p ∧ (storeEffect i value s).pc = s.pc := by
  obtain h | ⟨addr, -, h⟩ := storeEffect_cases i value s <;> rw [h] <;> exact ⟨rfl, rfl, rfl, rfl, rfl, rfl⟩

theorem storeEffect_pc (i : Instr) (value : State → Byte) (s : State) : (storeEffect i value s).pc = s.pc := by
  obtain ⟨-, -, -, -, -, hpc⟩ := storeEffect_registers_kept i value s
  exact hpc

theorem storeEffect_flag (i : Instr) (value : State → Byte) (f : Flag) (s : State) :
    (storeEffect i value s).flag f = s.flag f := by
  obtain ⟨-, -, -, -, hp, -⟩ := storeEffect_registers_kept i value s
  exact congrArg (flagOf f) hp

/-! ### JSR and BRK leave `A`, `X`, `Y` alone, and JSR all flags (R220, R243) -/

@[simp] theorem callSubroutine_a (target : Word) (s : State) : (callSubroutine target s).a = s.a := by
  simp [callSubroutine]
@[simp] theorem callSubroutine_x (target : Word) (s : State) : (callSubroutine target s).x = s.x := by
  simp [callSubroutine]
@[simp] theorem callSubroutine_y (target : Word) (s : State) : (callSubroutine target s).y = s.y := by
  simp [callSubroutine]
@[simp] theorem callSubroutine_flag (target : Word) (f : Flag) (s : State) :
    (callSubroutine target s).flag f = s.flag f := by
  simp [callSubroutine]

@[simp] theorem State.trapEntry_a (s : State) : s.trapEntry.a = s.a := by
  simp [State.trapEntry]
@[simp] theorem State.trapEntry_x (s : State) : s.trapEntry.x = s.x := by
  simp [State.trapEntry]
@[simp] theorem State.trapEntry_y (s : State) : s.trapEntry.y = s.y := by
  simp [State.trapEntry]
@[simp] theorem State.trapEntry_flag (f : Flag) (s : State) :
    s.trapEntry.flag f = if f = .breakCommand then true else s.flag f := by
  simp [State.trapEntry]

/-! ### The invariant (R20 to R22, R24, R46) -/

/-- The part of the invariant that an instruction's own effect can touch: the memory and the record of the last store. -/
def StoreCoherent (s : State) : Prop :=
  Memory.wf s.mem ∧ LastWriteVisible s

theorem storeCoherent_beginExecute {s : State} (h : Memory.wf s.mem) : StoreCoherent s.beginExecute :=
  ⟨h, fun _ _ hw => by cases hw⟩

/-- Right after a store its own byte is in memory, whatever `lastWrite` named before. -/
theorem storeCoherent_store {s : State} (h : Memory.wf s.mem) (addr : Word) (v : Byte) : StoreCoherent (s.store addr v) := by
  refine ⟨State.wf_store h addr v, fun addr' v' hw => ?_⟩
  cases hw
  exact State.load_store_same h rfl v

theorem storeCoherent_storeEffect {s : State} (h : StoreCoherent s) (i : Instr) (value : State → Byte) :
    StoreCoherent (storeEffect i value s) := by
  obtain he | ⟨addr, -, he⟩ := storeEffect_cases i value s <;> rw [he]
  · exact h
  · exact storeCoherent_store h.1 _ _

/-- A read-modify-write whose operation sets nothing but the flags. -/
theorem storeCoherent_modifyEffect {s : State} (h : StoreCoherent s) (i : Instr) {op : Byte → State → Byte × State}
    (hop : ∀ b t, ∃ p, (op b t).2 = t.setP p) : StoreCoherent (modifyEffect i op s) := by
  obtain ⟨-, he⟩ | ⟨addr, -, he⟩ := modifyEffect_cases i op s
  · obtain ⟨p, hp⟩ := hop s.a s
    rw [he, hp]
    exact h
  · obtain ⟨p, hp⟩ := hop (s.load addr) s
    rw [he, hp]
    exact storeCoherent_store h.1 _ _

theorem StoreCoherent.setSP {s : State} (h : StoreCoherent s) (v : Byte) : StoreCoherent (s.setSP v) := h

theorem StoreCoherent.setPC {s : State} (h : StoreCoherent s) (v : Word) : StoreCoherent (s.setPC v) := h

/-- JSR ends in the second of its two stores (R220). -/
theorem storeCoherent_callSubroutine {s : State} (h : Memory.wf s.mem) (target : Word) :
    StoreCoherent (callSubroutine target s) :=
  ((storeCoherent_store (State.wf_store h _ _) _ _).setSP _).setPC _

/-- BRK ends in the last of its three stores (R243). -/
theorem storeCoherent_trapEntry {s : State} (h : Memory.wf s.mem) : StoreCoherent s.trapEntry := by
  have hflag : Memory.wf (s.setFlag .breakCommand true).mem := h
  exact ((storeCoherent_store (State.wf_store (State.wf_store hflag _ _) _ _) _ _).setSP _).setPC _

/-- The records of R136 and R137 complete the invariant. -/
theorem inv_record {s : State} (h : StoreCoherent s) {n : Nat} (hn : n ≤ 2) (i : Instr) : Inv (s.record i n) :=
  ⟨h.1, hn, fun _ he => ⟨i, (Option.some.inj he).symm⟩, h.2⟩

/-- Every instruction ends in a state with the invariant, from every canonical memory. -/
theorem exec_establishes_inv {s : State} (hm : Memory.wf s.mem) (i : Instr) : Completes i s Inv := by
  have h := storeCoherent_beginExecute hm
  have plain : ∀ {e : State → State}, StoreCoherent (e s.beginExecute) → ∃ t, runPlain i e s = .next t ∧ Inv t :=
    fun {e} he => ⟨_, runPlain_eq i e s,
      inv_record (s := advance i (e s.beginExecute)) he ((pageCrossPenalty_le_one i s).trans one_le_two) i⟩
  have jump : ∀ {e : State → State}, StoreCoherent (e s.beginExecute) → ∃ t, runJump i e s = .next t ∧ Inv t :=
    fun {e} he => ⟨_, runJump_eq i e s, inv_record he (Nat.zero_le 2) i⟩
  unfold Completes
  rw [exec_eq_execByMnemonic]
  unfold execByMnemonic
  cases i.mnemonic
  case bcc | bcs | beq | bne | bmi | bpl | bvc | bvs => exact runBranch_completes fun _ _ hn => inv_record h hn i
  case asl | lsr | rol | ror | inc | dec => exact plain (storeCoherent_modifyEffect h i fun _ _ => ⟨_, rfl⟩)
  case sta | stx | sty => exact plain (storeCoherent_storeEffect h i _)
  case pha | php => exact plain (storeCoherent_store hm _ _)
  case jsr => exact jump (storeCoherent_callSubroutine hm _)
  case brk => exact jump (storeCoherent_trapEntry hm)
  case jmp | rts | rti => exact jump h
  all_goals exact plain h

/-- What a step that completes has run: the instruction fetched, and then the observer's note. -/
theorem exec_of_step_next {s t : State} (h : step s = .next t) :
    ∃ i u, s.fetch = .ok i ∧ exec i s = .next u ∧ t = u.noteRetired := by
  unfold step at h
  split at h
  next i hi =>
    obtain ⟨u, hu, -⟩ := exec_next i s
    rw [hu] at h
    cases h
    exact ⟨i, u, hi, hu, rfl⟩
  next => cases h

/-- Settles O17: the instruction executed establishes the invariant, and `noteRetired` touches the observer alone. -/
theorem stepKeepsInvariant : Obligations.StepKeepsInvariant := by
  intro s t hs h
  obtain ⟨i, u, -, hu, rfl⟩ := exec_of_step_next h
  have hinv : Inv u := (exec_establishes_inv hs.1 i).elim hu
  exact hinv

theorem inv_reset : Inv State.reset := by
  refine ⟨Memory.wf_nil, Nat.zero_le 2, fun e he => ?_, fun addr v hw => ?_⟩
  · cases he
  · cases hw
    rfl

/-- After `PowerUp` nothing has been executed, and the last store is the 0x00 at 0x4017 (R290). -/
theorem inv_powerUp {s : State} (h : Memory.wf s.mem) : Inv s.powerUp := by
  refine ⟨powerUp_wf h, by simp, fun e he => ?_, fun addr v hw => ?_⟩
  · rw [powerUp_lastExecuted] at he
    cases he
  · rw [powerUp_lastWrite] at hw
    cases hw
    exact powerUp_load_cleared h (mem_clearedAtPowerUp.2 (.inr (.inr rfl)))

/-- Settles O16: `State.reset` by its fields, `PowerUp` by the laws of its fields and of the cells it clears. -/
theorem powerUpEstablishesInvariant : Obligations.PowerUpEstablishesInvariant :=
  ⟨inv_reset, fun _ => inv_powerUp⟩

/-! ### Which instructions write a flag (R17) -/

/-- An instruction completes with every flag as it was that R17 does not list it for. -/
theorem exec_flag_kept {i : Instr} {f : Flag} (h : i.mnemonic ∉ flagWriters f) (s : State) :
    Completes i s fun t => t.flag f = s.flag f := by
  have ne : ∀ g, i.mnemonic ∈ flagWriters g → f ≠ g := fun g hg he => h (he ▸ hg)
  have plain : ∀ e : State → State, (∀ t, (e t).flag f = t.flag f) →
      ∃ t, runPlain i e s = .next t ∧ t.flag f = s.flag f := fun e he => ⟨_, runPlain_eq i e s, he s.beginExecute⟩
  have jump : ∀ e : State → State, (∀ t, (e t).flag f = t.flag f) →
      ∃ t, runJump i e s = .next t ∧ t.flag f = s.flag f := fun e he => ⟨_, runJump_eq i e s, he s.beginExecute⟩
  unfold Completes
  rw [exec_eq_execByMnemonic]
  unfold execByMnemonic
  generalize i.mnemonic = m at h ne
  cases m
  case bcc | bcs | beq | bne | bmi | bpl | bvc | bvs => exact runBranch_completes fun _ _ _ => rfl
  case adc | sbc =>
    have hc := ne .carry (by decide)
    have hz := ne .zero (by decide)
    have hv := ne .overflow (by decide)
    have hn := ne .negative (by decide)
    exact plain _ fun t => by simp [readEffect, adc, sbc, hc, hz, hv, hn]
  case cmp | cpx | cpy =>
    have hc := ne .carry (by decide)
    have hz := ne .zero (by decide)
    have hn := ne .negative (by decide)
    exact plain _ fun t => by simp [readEffect, cmpA, cpxX, cpyY, compareBytes, hc, hz, hn]
  case asl | lsr | rol | ror =>
    have hc := ne .carry (by decide)
    have hz := ne .zero (by decide)
    have hn := ne .negative (by decide)
    exact plain _ (modifyEffect_flag_kept (fun b t => by simp [asl, lsr, rol, ror, shifted, hc, hz, hn]) i)
  case bit =>
    have hz := ne .zero (by decide)
    have hv := ne .overflow (by decide)
    have hn := ne .negative (by decide)
    exact plain _ fun t => by simp [readEffect, bitTest, hz, hv, hn]
  case inc | dec =>
    have hz := ne .zero (by decide)
    have hn := ne .negative (by decide)
    exact plain _ (modifyEffect_flag_kept (fun b t => by simp [inc, dec, hz, hn]) i)
  case and | ora | eor | lda | ldx | ldy | tax | tay | txa | tya | tsx | inx | iny | dex | dey | pla =>
    have hz := ne .zero (by decide)
    have hn := ne .negative (by decide)
    exact plain _ fun t => by
      simp [readEffect, andA, oraA, eorA, logicResult, toA, toX, toY, countX, countY, pullA, hz, hn]
  case clc | sec => exact plain _ fun t => by simp [ne .carry (by decide)]
  case cli | sei => exact plain _ fun t => by simp [ne .interruptDisable (by decide)]
  case cld | sed => exact plain _ fun t => by simp [ne .decimalMode (by decide)]
  case clv => exact plain _ fun t => by simp [ne .overflow (by decide)]
  case brk => exact jump _ fun t => by simp [ne .breakCommand (by decide)]
  case plp | rti => cases f <;> exact absurd (by decide) h
  case sta | stx | sty => exact plain _ (storeEffect_flag i _ f)
  case jsr => exact jump _ (callSubroutine_flag _ f)
  case jmp | rts => exact jump _ fun _ => rfl
  case txs | pha | php | nop => exact plain _ fun _ => rfl

/-- Settles O47: `exec` completes by `exec_next`, and `exec_flag_kept` speaks of the state it completes in. -/
theorem flagsWrittenOnlyAsListed : Obligations.FlagsWrittenOnlyAsListed := by
  intro i s
  obtain ⟨t, ht, -⟩ := exec_next i s
  exact ⟨t, ht, fun f hf => (exec_flag_kept hf s).elim ht⟩

/-! ### Which instructions write a register (R13) -/

/-- The mnemonics that write `A` (files 43, 44, 45 and 47). -/
def aWriters : List Mnemonic := [.adc, .sbc, .and, .ora, .eor, .asl, .lsr, .rol, .ror, .lda, .txa, .tya, .pla]

/-- The four clauses on `A`, `X`, `Y` and `SP`: each is kept but by the mnemonics that write it (files 43 to 47). -/
def RegistersAsListed (m : Mnemonic) (s t : State) : Prop :=
  (m ∉ aWriters → t.a = s.a) ∧
  (m ∉ [.ldx, .tax, .tsx, .inx, .dex] → t.x = s.x) ∧
  (m ∉ [.ldy, .tay, .iny, .dey] → t.y = s.y) ∧
  (m ∉ [.txs, .pha, .php, .pla, .plp, .jsr, .rts, .brk, .rti] → t.sp = s.sp)

/-- INC and DEC, which have no accumulator form, are the read-modify-writes that leave `A` alone. -/
theorem modifyEffect_a_of_incDec {i : Instr} (h : i.mnemonic ∈ [Mnemonic.inc, .dec]) {op : Byte → State → Byte × State}
    (hop : ∀ b t, (op b t).2.a = t.a) (s : State) : (modifyEffect i op s).a = s.a := by
  obtain ⟨addr, ha⟩ := storeAddress_of_incDec h s
  obtain ⟨hn, -⟩ | ⟨addr, -, he⟩ := modifyEffect_cases i op s
  · cases ha.symm.trans hn
  · rw [he, State.store_a, hop]

/-- Every instruction completes with the registers it is not listed for as they were. -/
theorem exec_registersAsListed (i : Instr) (s : State) : Completes i s (RegistersAsListed i.mnemonic s) := by
  have plain : ∀ e : State → State, RegistersAsListed i.mnemonic s (e s.beginExecute) →
      ∃ t, runPlain i e s = .next t ∧ RegistersAsListed i.mnemonic s t := fun e he => ⟨_, runPlain_eq i e s, he⟩
  have jump : ∀ e : State → State, RegistersAsListed i.mnemonic s (e s.beginExecute) →
      ∃ t, runJump i e s = .next t ∧ RegistersAsListed i.mnemonic s t := fun e he => ⟨_, runJump_eq i e s, he⟩
  have modify : ∀ op : Byte → State → Byte × State, (∀ b t, ∃ p, (op b t).2 = t.setP p) →
      (i.mnemonic ∉ aWriters → (modifyEffect i op s.beginExecute).a = s.a) →
      ∃ t, runPlain i (modifyEffect i op) s = .next t ∧ RegistersAsListed i.mnemonic s t := by
    intro op hop ha
    obtain ⟨hx, hy, hsp, -⟩ := modifyEffect_registers_kept hop i s.beginExecute
    exact plain _ ⟨ha, fun _ => hx, fun _ => hy, fun _ => hsp⟩
  unfold Completes
  rw [exec_eq_execByMnemonic]
  unfold execByMnemonic
  generalize hm : i.mnemonic = m at plain jump modify
  cases m
  case bcc | bcs | beq | bne | bmi | bpl | bvc | bvs =>
    exact runBranch_completes fun _ _ _ => ⟨fun _ => rfl, fun _ => rfl, fun _ => rfl, fun _ => rfl⟩
  case adc | sbc | and | ora | eor | lda | txa | tya =>
    exact plain _ ⟨absurd (by decide), fun _ => rfl, fun _ => rfl, fun _ => rfl⟩
  case ldx | tax | tsx | inx | dex => exact plain _ ⟨fun _ => rfl, absurd (by decide), fun _ => rfl, fun _ => rfl⟩
  case ldy | tay | iny | dey => exact plain _ ⟨fun _ => rfl, fun _ => rfl, absurd (by decide), fun _ => rfl⟩
  case txs | pha | php | plp => exact plain _ ⟨fun _ => rfl, fun _ => rfl, fun _ => rfl, absurd (by decide)⟩
  case pla => exact plain _ ⟨absurd (by decide), fun _ => rfl, fun _ => rfl, absurd (by decide)⟩
  case jsr | brk =>
    exact jump _ ⟨fun _ => by simp, fun _ => by simp, fun _ => by simp, absurd (by decide)⟩
  case rts | rti => exact jump _ ⟨fun _ => rfl, fun _ => rfl, fun _ => rfl, absurd (by decide)⟩
  case jmp => exact jump _ ⟨fun _ => rfl, fun _ => rfl, fun _ => rfl, fun _ => rfl⟩
  case asl | lsr | rol | ror => exact modify _ (fun _ _ => ⟨_, rfl⟩) (absurd (by decide))
  case inc | dec =>
    exact modify _ (fun _ _ => ⟨_, rfl⟩) fun _ => modifyEffect_a_of_incDec (by rw [hm]; decide) (fun _ _ => rfl) _
  case sta | stx | sty =>
    obtain ⟨ha, hx, hy, hsp, -, -⟩ := storeEffect_registers_kept i _ s.beginExecute
    exact plain _ ⟨fun _ => ha, fun _ => hx, fun _ => hy, fun _ => hsp⟩
  case cmp | cpx | cpy | bit | clc | sec | cli | sei | cld | sed | clv | nop =>
    exact plain _ ⟨fun _ => rfl, fun _ => rfl, fun _ => rfl, fun _ => rfl⟩

/-- Every instruction that does not set `PC` itself leaves it at the next instruction (R133). -/
theorem exec_advances {i : Instr} (h : i.mnemonic ∉ pcSetters) (s : State) : Completes i s (Advances i s) := by
  have plain : ∀ e : State → State, (e s.beginExecute).pc = s.pc → ∃ t, runPlain i e s = .next t ∧ Advances i s t :=
    fun e he => ⟨_, runPlain_eq i e s, (advance_pc i _).trans (congrArg (· + _) he)⟩
  unfold Completes
  rw [exec_eq_execByMnemonic]
  unfold execByMnemonic
  generalize i.mnemonic = m at h
  cases m
  case bcc | bcs | beq | bne | bmi | bpl | bvc | bvs | jmp | jsr | rts | brk | rti => exact absurd (by decide) h
  case asl | lsr | rol | ror | inc | dec =>
    exact plain _ (modifyEffect_pc (fun _ _ => ⟨_, rfl⟩) i _)
  case sta | stx | sty => exact plain _ (storeEffect_pc i _ _)
  all_goals exact plain _ rfl

/-- Settles O48: the four registers by `exec_registersAsListed`, `PC` by `exec_advances`. -/
theorem registersWrittenOnlyAsListed : Obligations.RegistersWrittenOnlyAsListed := by
  intro i s t ht
  obtain ⟨ha, hx, hy, hsp⟩ := (exec_registersAsListed i s).elim ht
  exact ⟨ha, hx, hy, hsp, fun h => (exec_advances h s).elim ht⟩

/-! ### The storage bits of `P` (R17, R19) -/

namespace SameButStorageBits

variable {s t : State}

/-- The other state is the first with a `P` of its own. -/
theorem eq_setP (h : SameButStorageBits s t) : t = s.setP t.p := h.1.symm

theorem a (h : SameButStorageBits s t) : s.a = t.a := by rw [h.eq_setP, State.setP_a]
theorem x (h : SameButStorageBits s t) : s.x = t.x := by rw [h.eq_setP, State.setP_x]
theorem y (h : SameButStorageBits s t) : s.y = t.y := by rw [h.eq_setP, State.setP_y]
theorem sp (h : SameButStorageBits s t) : s.sp = t.sp := by rw [h.eq_setP, State.setP_sp]
theorem pc (h : SameButStorageBits s t) : s.pc = t.pc := by rw [h.eq_setP, State.setP_pc]
theorem mem (h : SameButStorageBits s t) : s.mem = t.mem := by rw [h.eq_setP, State.setP_mem]

theorem load (h : SameButStorageBits s t) (addr : Word) : s.load addr = t.load addr :=
  State.load_congr h.mem addr

theorem carryIn (h : SameButStorageBits s t) : s.carryIn = t.carryIn :=
  congrArg Bool.toNat (h.2 .carry (by decide))

/-- An update that commutes with a change of `P` keeps the relation: it neither reads nor writes `P`. -/
theorem of_commutes {update : State → State} (hu : ∀ (s : State) (p : Byte), update (s.setP p) = (update s).setP p)
    (h : SameButStorageBits s t) : SameButStorageBits (update s) (update t) := by
  have hp : ∀ s, (update s).p = s.p := fun s => by
    have hself : update s = (update s).setP s.p := hu s s.p
    rw [hself, State.setP_p]
  have ht : update t = (update s).setP t.p := (congrArg update h.eq_setP).trans (hu s t.p)
  refine ⟨?_, fun f hf => ?_⟩
  · rw [ht]
    rfl
  · rw [State.flag_eq, State.flag_eq, hp, hp]
    exact h.2 f hf

/-- A write of `P` keeps the relation when the two values agree on C, Z, V and N. -/
theorem setP {p q : Byte} (h : SameButStorageBits s t)
    (hpq : ∀ f ∈ [Flag.carry, .zero, .overflow, .negative], flagOf f p = flagOf f q) :
    SameButStorageBits (s.setP p) (t.setP q) := by
  refine ⟨?_, hpq⟩
  rw [h.eq_setP]
  rfl

/-- Writing one flag to the same bit in both states keeps the relation, also for a storage bit. -/
theorem setFlag (h : SameButStorageBits s t) (f : Flag) (b : Bool) :
    SameButStorageBits (s.setFlag f b) (t.setFlag f b) := by
  refine h.setP fun g hg => ?_
  have hflag : flagOf g s.p = flagOf g t.p := h.2 g hg
  rw [flagOf_withFlag, flagOf_withFlag, hflag]

theorem setZN (h : SameButStorageBits s t) (v : Nat) : SameButStorageBits (s.setZN v) (t.setZN v) :=
  (h.setFlag .zero _).setFlag .negative _

theorem setV (h : SameButStorageBits s t) (r : Nat) (m n : Byte) :
    SameButStorageBits (s.setV r m n) (t.setV r m n) :=
  h.setFlag .overflow _

theorem setA (h : SameButStorageBits s t) (v : Byte) : SameButStorageBits (s.setA v) (t.setA v) :=
  h.of_commutes (update := State.setA v) fun _ _ => rfl

theorem setX (h : SameButStorageBits s t) (v : Byte) : SameButStorageBits (s.setX v) (t.setX v) :=
  h.of_commutes (update := State.setX v) fun _ _ => rfl

theorem setY (h : SameButStorageBits s t) (v : Byte) : SameButStorageBits (s.setY v) (t.setY v) :=
  h.of_commutes (update := State.setY v) fun _ _ => rfl

theorem setSP (h : SameButStorageBits s t) (v : Byte) : SameButStorageBits (s.setSP v) (t.setSP v) :=
  h.of_commutes (update := State.setSP v) fun _ _ => rfl

theorem setPC (h : SameButStorageBits s t) (v : Word) : SameButStorageBits (s.setPC v) (t.setPC v) :=
  h.of_commutes (update := State.setPC v) fun _ _ => rfl

theorem store (h : SameButStorageBits s t) (addr : Word) (v : Byte) :
    SameButStorageBits (s.store addr v) (t.store addr v) :=
  h.of_commutes (update := State.store addr v) fun _ _ => rfl

theorem beginExecute (h : SameButStorageBits s t) : SameButStorageBits s.beginExecute t.beginExecute :=
  h.of_commutes (update := State.beginExecute) fun _ _ => rfl

theorem record (h : SameButStorageBits s t) (i : Instr) (n : Nat) :
    SameButStorageBits (s.record i n) (t.record i n) :=
  h.of_commutes (update := State.record i n) fun _ _ => rfl

theorem advance (h : SameButStorageBits s t) (i : Instr) :
    SameButStorageBits (Machine.advance i s) (Machine.advance i t) :=
  h.of_commutes (update := Machine.advance i) fun _ _ => rfl

end SameButStorageBits

/-- An effect that takes states equal but for the storage bits to states equal but for the storage bits. -/
def IgnoresStorageBits (effect : State → State) : Prop :=
  ∀ {s t : State}, SameButStorageBits s t → SameButStorageBits (effect s) (effect t)

/-- The same for an operation of a read-modify-write, which also gives the byte to write back. -/
def OpIgnoresStorageBits (op : Byte → State → Byte × State) : Prop :=
  ∀ (b : Byte) {s t : State}, SameButStorageBits s t →
    (op b s).1 = (op b t).1 ∧ SameButStorageBits (op b s).2 (op b t).2

theorem ignores_of_commutes {effect : State → State}
    (h : ∀ (s : State) (p : Byte), effect (s.setP p) = (effect s).setP p) : IgnoresStorageBits effect :=
  fun hst => hst.of_commutes h

/-- An effect at a value that does not depend on `P`. -/
theorem ignores_at {α : Type} {value : State → α} {effect : α → State → State}
    (hv : ∀ (s : State) (p : Byte), value (s.setP p) = value s) (he : ∀ v, IgnoresStorageBits (effect v)) :
    IgnoresStorageBits fun s => effect (value s) s := by
  intro s t h
  have hval : value t = value s := (congrArg value h.eq_setP).trans (hv s t.p)
  simp only [hval]
  exact he _ h

/-! #### The three ways of running an effect -/

theorem runPlain_pair {effect : State → State} (he : IgnoresStorageBits effect) {s t : State}
    (h : SameButStorageBits s t) (i : Instr) :
    ∃ s' t', runPlain i effect s = .next s' ∧ runPlain i effect t = .next t' ∧ SameButStorageBits s' t' := by
  refine ⟨_, _, runPlain_eq i effect s, runPlain_eq i effect t, ?_⟩
  rw [pageCrossPenalty_congr h.x h.y h.mem i]
  exact ((he h.beginExecute).advance i).record i _

theorem runJump_pair {effect : State → State} (he : IgnoresStorageBits effect) {s t : State}
    (h : SameButStorageBits s t) (i : Instr) :
    ∃ s' t', runJump i effect s = .next s' ∧ runJump i effect t = .next t' ∧ SameButStorageBits s' t' :=
  ⟨_, _, runJump_eq i effect s, runJump_eq i effect t, (he h.beginExecute).record i 0⟩

/-- A branch tests C, Z, V or N, so both states take it or neither does. -/
theorem runBranch_pair {f : Flag} (hf : f ∈ [Flag.carry, .zero, .overflow, .negative]) (value : Bool) (w : Word)
    {s t : State} (h : SameButStorageBits s t) (i : Instr) :
    ∃ s' t', runBranch i f value w s = .next s' ∧ runBranch i f value w t = .next t' ∧ SameButStorageBits s' t' := by
  have hflag := h.2 f hf
  by_cases htaken : s.flag f = value
  · refine ⟨_, _, runBranch_taken htaken i w, runBranch_taken (hflag ▸ htaken) i w, ?_⟩
    rw [h.pc]
    exact (h.beginExecute.setPC _).record i _
  · refine ⟨_, _, runBranch_not_taken htaken i w, runBranch_not_taken (hflag ▸ htaken) i w, ?_⟩
    rw [h.pc]
    exact (h.beginExecute.setPC _).record i _

/-! #### The shapes in which an instruction uses its operand -/

theorem ignores_readEffect (i : Instr) {op : Byte → State → State} (hop : ∀ m, IgnoresStorageBits (op m)) :
    IgnoresStorageBits (readEffect i op) :=
  ignores_at (value := operandByte i) (fun _ _ => operandByte_congr rfl rfl rfl rfl i) hop

theorem ignores_storeEffect (i : Instr) {value : State → Byte}
    (hv : ∀ (s : State) (p : Byte), value (s.setP p) = value s) : IgnoresStorageBits (storeEffect i value) := by
  refine ignores_of_commutes fun s p => ?_
  unfold storeEffect
  rw [storeAddress_congr (s := s.setP p) (t := s) rfl rfl rfl, hv]
  split <;> rfl

theorem ignores_modifyEffect (i : Instr) {op : Byte → State → Byte × State} (hop : OpIgnoresStorageBits op) :
    IgnoresStorageBits (modifyEffect i op) := by
  intro s t h
  simp only [modifyEffect, modifyAccumulator, storeAddress_congr h.x h.y h.mem, h.a, h.load]
  split
  next =>
    obtain ⟨hbyte, hstate⟩ := hop t.a h
    rw [hbyte]
    exact hstate.setA _
  next addr _ =>
    obtain ⟨hbyte, hstate⟩ := hop (t.load addr) h
    rw [hbyte]
    exact hstate.store _ _

/-! #### The effects of files 43 to 47 -/

theorem ignores_adc (m : Byte) : IgnoresStorageBits (adc m) := by
  intro s t h
  simp only [adc, h.a, h.carryIn]
  exact (((h.setFlag _ _).setZN _).setV _ _ _).setA _

theorem ignores_sbc (m : Byte) : IgnoresStorageBits (sbc m) := by
  intro s t h
  simp only [sbc, h.a, h.carryIn]
  exact (((h.setFlag _ _).setZN _).setV _ _ _).setA _

theorem ignores_logicResult (v : Byte) : IgnoresStorageBits (logicResult v) := fun h => (h.setZN _).setA v

theorem ignores_andA (m : Byte) : IgnoresStorageBits (andA m) :=
  ignores_at (value := fun s => s.a &&& m) (fun _ _ => rfl) ignores_logicResult

theorem ignores_oraA (m : Byte) : IgnoresStorageBits (oraA m) :=
  ignores_at (value := fun s => s.a ||| m) (fun _ _ => rfl) ignores_logicResult

theorem ignores_eorA (m : Byte) : IgnoresStorageBits (eorA m) :=
  ignores_at (value := fun s => s.a ^^^ m) (fun _ _ => rfl) ignores_logicResult

theorem ignores_toA (v : Byte) : IgnoresStorageBits (toA v) := fun h => (h.setZN _).setA v

theorem ignores_toX (v : Byte) : IgnoresStorageBits (toX v) := fun h => (h.setZN _).setX v

theorem ignores_toY (v : Byte) : IgnoresStorageBits (toY v) := fun h => (h.setZN _).setY v

theorem ignores_countX (v : Byte) : IgnoresStorageBits (countX v) := fun h => (h.setZN _).setX v

theorem ignores_countY (v : Byte) : IgnoresStorageBits (countY v) := fun h => (h.setZN _).setY v

theorem ignores_compareBytes (register m : Byte) : IgnoresStorageBits (compareBytes register m) :=
  fun h => (h.setFlag _ _).setZN _

theorem ignores_cmpA (m : Byte) : IgnoresStorageBits (cmpA m) :=
  ignores_at (value := State.a) (fun _ _ => rfl) (ignores_compareBytes · m)

theorem ignores_cpxX (m : Byte) : IgnoresStorageBits (cpxX m) :=
  ignores_at (value := State.x) (fun _ _ => rfl) (ignores_compareBytes · m)

theorem ignores_cpyY (m : Byte) : IgnoresStorageBits (cpyY m) :=
  ignores_at (value := State.y) (fun _ _ => rfl) (ignores_compareBytes · m)

theorem ignores_bitTest (m : Byte) : IgnoresStorageBits (bitTest m) :=
  ignores_at (value := fun s => s.a &&& m == 0#8) (effect := fun z s =>
    ((s.setFlag .zero z).setFlag .overflow (bitValue 6 m)).setFlag .negative (bitValue 7 m)) (fun _ _ => rfl)
    fun _ _ _ h => ((h.setFlag _ _).setFlag _ _).setFlag _ _

theorem ignores_shifted (new : Byte) (out : Bool) {s t : State} (h : SameButStorageBits s t) :
    (shifted new out s).1 = (shifted new out t).1 ∧ SameButStorageBits (shifted new out s).2 (shifted new out t).2 :=
  ⟨rfl, (h.setFlag _ _).setZN _⟩

theorem ignores_asl : OpIgnoresStorageBits asl := fun _ _ _ h => ignores_shifted _ _ h

theorem ignores_lsr : OpIgnoresStorageBits lsr := fun _ _ _ h => ignores_shifted _ _ h

/-- ROL and ROR read C, in which the states agree. -/
theorem ignores_rol : OpIgnoresStorageBits rol := by
  intro b s t h
  simp only [rol, h.2 .carry (by decide)]
  exact ignores_shifted _ _ h

theorem ignores_ror : OpIgnoresStorageBits ror := by
  intro b s t h
  simp only [ror, h.2 .carry (by decide)]
  exact ignores_shifted _ _ h

theorem ignores_inc : OpIgnoresStorageBits inc := fun _ _ _ h => ⟨rfl, h.setZN _⟩

theorem ignores_dec : OpIgnoresStorageBits dec := fun _ _ _ h => ⟨rfl, h.setZN _⟩

theorem ignores_setFlag (f : Flag) (b : Bool) : IgnoresStorageBits (State.setFlag f b) := fun h => h.setFlag f b

theorem ignores_pullA : IgnoresStorageBits pullA :=
  ignores_at (value := State.pulled) (effect := fun v s => (s.afterPull.setZN v.toNat).setA v) (fun _ _ => rfl)
    fun v s t h => by
      have hsp : SameButStorageBits s.afterPull t.afterPull := h.of_commutes (update := State.afterPull) fun _ _ => rfl
      exact (hsp.setZN _).setA v

/-- PLP makes the whole of `P` equal. -/
theorem ignores_pullP : IgnoresStorageBits pullP :=
  ignores_at (value := State.pulled) (effect := fun v s => s.afterPull.setP v) (fun _ _ => rfl)
    fun v s t h => by
      have hsp : SameButStorageBits s.afterPull t.afterPull := h.of_commutes (update := State.afterPull) fun _ _ => rfl
      exact hsp.setP fun _ _ => rfl

theorem ignores_trapReturn : IgnoresStorageBits State.trapReturn := by
  intro s t h
  simp only [State.trapReturn, h.sp, h.load]
  exact ((h.setP fun _ _ => rfl).setSP _).setPC _

theorem ignores_callSubroutine (target : Word) : IgnoresStorageBits (callSubroutine target) := by
  intro s t h
  simp only [callSubroutine, h.sp, h.pc]
  exact (((h.store _ _).store _ _).setSP _).setPC target

theorem ignores_returnFromSubroutine : IgnoresStorageBits returnFromSubroutine :=
  ignores_of_commutes fun _ _ => rfl

/-- Settles O50: every effect but those of PHP and BRK, which store the whole of `P`, ignores the storage bits. -/
theorem storageBitsInfluenceNothing : Obligations.StorageBitsInfluenceNothing := by
  intro i s s' hphp hbrk h
  rw [exec_eq_execByMnemonic, exec_eq_execByMnemonic]
  unfold execByMnemonic
  cases hm : i.mnemonic
  case php => exact absurd hm hphp
  case brk => exact absurd hm hbrk
  case bcc | bcs | beq | bne | bmi | bpl | bvc | bvs => exact runBranch_pair (by decide) _ _ h i
  case adc => exact runPlain_pair (ignores_readEffect i ignores_adc) h i
  case sbc => exact runPlain_pair (ignores_readEffect i ignores_sbc) h i
  case and => exact runPlain_pair (ignores_readEffect i ignores_andA) h i
  case ora => exact runPlain_pair (ignores_readEffect i ignores_oraA) h i
  case eor => exact runPlain_pair (ignores_readEffect i ignores_eorA) h i
  case cmp => exact runPlain_pair (ignores_readEffect i ignores_cmpA) h i
  case cpx => exact runPlain_pair (ignores_readEffect i ignores_cpxX) h i
  case cpy => exact runPlain_pair (ignores_readEffect i ignores_cpyY) h i
  case bit => exact runPlain_pair (ignores_readEffect i ignores_bitTest) h i
  case lda => exact runPlain_pair (ignores_readEffect i ignores_toA) h i
  case ldx => exact runPlain_pair (ignores_readEffect i ignores_toX) h i
  case ldy => exact runPlain_pair (ignores_readEffect i ignores_toY) h i
  case asl => exact runPlain_pair (ignores_modifyEffect i ignores_asl) h i
  case lsr => exact runPlain_pair (ignores_modifyEffect i ignores_lsr) h i
  case rol => exact runPlain_pair (ignores_modifyEffect i ignores_rol) h i
  case ror => exact runPlain_pair (ignores_modifyEffect i ignores_ror) h i
  case inc => exact runPlain_pair (ignores_modifyEffect i ignores_inc) h i
  case dec => exact runPlain_pair (ignores_modifyEffect i ignores_dec) h i
  case sta | stx | sty => exact runPlain_pair (ignores_storeEffect i fun _ _ => rfl) h i
  case txa => exact runPlain_pair (ignores_at (value := State.x) (fun _ _ => rfl) ignores_toA) h i
  case tya => exact runPlain_pair (ignores_at (value := State.y) (fun _ _ => rfl) ignores_toA) h i
  case tax => exact runPlain_pair (ignores_at (value := State.a) (fun _ _ => rfl) ignores_toX) h i
  case tsx => exact runPlain_pair (ignores_at (value := State.sp) (fun _ _ => rfl) ignores_toX) h i
  case tay => exact runPlain_pair (ignores_at (value := State.a) (fun _ _ => rfl) ignores_toY) h i
  case inx => exact runPlain_pair (ignores_at (value := fun t => t.x + 1#8) (fun _ _ => rfl) ignores_countX) h i
  case iny => exact runPlain_pair (ignores_at (value := fun t => t.y + 1#8) (fun _ _ => rfl) ignores_countY) h i
  case dex => exact runPlain_pair (ignores_at (value := fun t => t.x - 1#8) (fun _ _ => rfl) ignores_countX) h i
  case dey => exact runPlain_pair (ignores_at (value := fun t => t.y - 1#8) (fun _ _ => rfl) ignores_countY) h i
  case clc | sec | cli | sei | cld | sed | clv => exact runPlain_pair (ignores_setFlag _ _) h i
  case pla => exact runPlain_pair ignores_pullA h i
  case plp => exact runPlain_pair ignores_pullP h i
  case txs | pha | nop => exact runPlain_pair (ignores_of_commutes fun _ _ => rfl) h i
  case jmp => exact runJump_pair (ignores_of_commutes fun _ _ => rfl) h i
  case jsr => exact runJump_pair (ignores_callSubroutine _) h i
  case rts => exact runJump_pair ignores_returnFromSubroutine h i
  case rti => exact runJump_pair ignores_trapReturn h i

end Sys2Proof.Machine

namespace Sys2Proof.Machine

/-! ### Aliases and word accesses (R41, R44, R45, R48) -/

/-- Two addresses with the same backing cell, said without `cellOf`: RAM mirrors agree modulo 0x0800, mirrors of the PPU
window modulo 8, and every other address has a cell of its own (R41). -/
def Aliases (addr other : Word) : Prop :=
  (addr.toNat ≤ 0x1FFF ∧ other.toNat ≤ 0x1FFF ∧ other.toNat % 0x0800 = addr.toNat % 0x0800) ∨
  (0x2000 ≤ addr.toNat ∧ addr.toNat ≤ 0x3FFF ∧ 0x2000 ≤ other.toNat ∧ other.toNat ≤ 0x3FFF ∧
    other.toNat % 8 = addr.toNat % 8) ∨ other = addr

/-- The three regions of the map and the cell behind an address of each (R41). -/
theorem cellOf_regions (addr : Word) :
    (addr.toNat ≤ 0x1FFF ∧ cellOf addr = addr.toNat % 0x0800) ∨
    (0x2000 ≤ addr.toNat ∧ addr.toNat ≤ 0x3FFF ∧ cellOf addr = 0x2000 + addr.toNat % 8) ∨
    (0x4000 ≤ addr.toNat ∧ cellOf addr = addr.toNat) := by
  rcases Nat.lt_or_ge addr.toNat 0x2000 with hram | hram
  · exact .inl ⟨by omega, cellOf_ram hram⟩
  · rcases Nat.lt_or_ge addr.toNat 0x4000 with hppu | hown
    · exact .inr (.inl ⟨hram, by omega, cellOf_ppu hram hppu⟩)
    · exact .inr (.inr ⟨hown, cellOf_own hown⟩)

/-- The mirroring transform identifies exactly the aliases: the cells of the three regions are disjoint (R24, R41). -/
theorem cellOf_eq_iff_aliases (addr other : Word) : cellOf other = cellOf addr ↔ Aliases addr other := by
  have haddr := cellOf_regions addr
  have hother := cellOf_regions other
  unfold Aliases
  rw [← BitVec.toNat_inj]
  omega

/-- Inverting bit 11 of a RAM address leads to another mirror of it. -/
theorem cellOf_xor_ramSize {addr : Word} (h : addr.toNat ≤ 0x1FFF) : cellOf (addr ^^^ 0x0800#16) = cellOf addr := by
  have hxor : (addr ^^^ 0x0800#16).toNat = addr.toNat ^^^ 2 ^ 11 := by simp
  have hlt : addr.toNat ^^^ 2 ^ 11 < 2 ^ 13 := Nat.xor_lt_two_pow (by omega) (by decide)
  rw [cellOf_ram (addr := addr) (by omega), cellOf_ram (by omega), hxor]
  exact (Nat.xor_mod_two_pow (n := 11)).trans (by simp)

/-- Settles O8: aliases are the addresses with the same cell, and a store is seen through exactly that cell. -/
theorem storeIsSeenThroughMirrors : Obligations.StoreIsSeenThroughMirrors := by
  intro s addr other v hm
  have halias := cellOf_eq_iff_aliases addr other
  exact ⟨fun h => State.load_store_same hm (halias.2 h) v, fun h => State.load_store_other (mt halias.1 h) v s,
    fun h => State.load_store_same hm (cellOf_xor_ramSize h) v⟩

/-- Settles O9: a word store is two stores to different cells, for an address and its successor never share one. -/
theorem wordAccessIsTwoBytes : Obligations.WordAccessIsTwoBytes := by
  intro s addr v hm
  refine ⟨wordOf_toNat _ _, ?_, State.load_store_same (State.wf_store hm _ _) rfl _, rfl, fun other hlow hhigh => ?_, rfl⟩
  · calc (s.storeWord addr v).load addr
      _ = (s.store addr (lowByte v)).load addr := State.load_store_other (cellOf_succ_ne addr) _ _
      _ = lowByte v := State.load_store_same hm rfl _
  · calc (s.storeWord addr v).load other
      _ = (s.store addr (lowByte v)).load other := State.load_store_other hhigh _ _
      _ = s.load other := State.load_store_other hlow _ _

/-! ### Where an instruction stores (R53, R110, R220, R231, R232, R243) -/

/-- The addresses an instruction stores to: its operand's, or the stack slots it fills, from `SP` as it is before. -/
def storedSlots (i : Instr) (s : State) : List Word :=
  if i.mnemonic ∈ operandStorers then (storeAddress i s).toList
  else if i.mnemonic ∈ [.pha, .php] then [stackAddr s.sp]
  else if i.mnemonic = .jsr then [stackAddr (s.sp - 1#8), stackAddr s.sp]
  else if i.mnemonic = .brk then [stackAddr s.sp, stackAddr (s.sp - 1#8), stackAddr (s.sp - 2#8)]
  else []

theorem storedSlots_of_operandStorer {i : Instr} (h : i.mnemonic ∈ operandStorers) (s : State) :
    storedSlots i s = (storeAddress i s).toList := if_pos h

theorem storedSlots_of_push {i : Instr} (h : i.mnemonic = .pha ∨ i.mnemonic = .php) (s : State) :
    storedSlots i s = [stackAddr s.sp] := by
  rcases h with h | h <;> simp [storedSlots, operandStorers, h]

theorem storedSlots_of_jsr {i : Instr} (h : i.mnemonic = .jsr) (s : State) :
    storedSlots i s = [stackAddr (s.sp - 1#8), stackAddr s.sp] := by
  simp [storedSlots, operandStorers, h]

theorem storedSlots_of_brk {i : Instr} (h : i.mnemonic = .brk) (s : State) :
    storedSlots i s = [stackAddr s.sp, stackAddr (s.sp - 1#8), stackAddr (s.sp - 2#8)] := by
  simp [storedSlots, operandStorers, h]

/-- Every byte that is not behind one of the slots reads in `t` as it does in `s`. -/
def LoadsKeptBut (slots : List Word) (s t : State) : Prop :=
  ∀ addr, (∀ slot ∈ slots, cellOf addr ≠ cellOf slot) → t.load addr = s.load addr

theorem LoadsKeptBut.of_mem_eq {s t : State} (h : t.mem = s.mem) (slots : List Word) : LoadsKeptBut slots s t :=
  fun addr _ => State.load_congr h addr

/-- A further store to one of the slots changes nothing else. -/
theorem LoadsKeptBut.store {slots : List Word} {s t : State} (h : LoadsKeptBut slots s t) {slot : Word}
    (hslot : slot ∈ slots) (v : Byte) : LoadsKeptBut slots s (t.store slot v) :=
  fun addr ha => (State.load_store_other (ha slot hslot) v t).trans (h addr ha)

/-- A store instruction stores to its store address alone. -/
theorem storeEffect_loadsKept (i : Instr) (value : State → Byte) (s : State) :
    LoadsKeptBut (storeAddress i s).toList s (storeEffect i value s) := by
  have hself := LoadsKeptBut.of_mem_eq (s := s) rfl (storeAddress i s).toList
  obtain he | ⟨addr, ha, he⟩ := storeEffect_cases i value s <;> rw [he]
  · exact hself
  · exact hself.store (by simp [ha]) _

/-- A read-modify-write whose operation leaves memory alone stores to its store address alone. -/
theorem modifyEffect_loadsKept {op : Byte → State → Byte × State} (hop : ∀ b t, (op b t).2.mem = t.mem) (i : Instr)
    (s : State) : LoadsKeptBut (storeAddress i s).toList s (modifyEffect i op s) := by
  obtain ⟨-, he⟩ | ⟨addr, ha, he⟩ := modifyEffect_cases i op s <;> rw [he]
  · exact LoadsKeptBut.of_mem_eq (hop _ _) _
  · exact (LoadsKeptBut.of_mem_eq (hop _ _) _).store (by simp [ha]) _

/-- A push stores to the slot of `SP` (R230). -/
theorem push_loadsKept (v : Byte) (s : State) : LoadsKeptBut [stackAddr s.sp] s (s.push v) :=
  (LoadsKeptBut.of_mem_eq rfl _).store (t := s) (List.mem_singleton_self _) v

/-- JSR stores to two slots (R220). -/
theorem callSubroutine_loadsKept (target : Word) (s : State) :
    LoadsKeptBut [stackAddr (s.sp - 1#8), stackAddr s.sp] s (callSubroutine target s) :=
  ((LoadsKeptBut.of_mem_eq rfl _).store (by simp) _).store (by simp) _

/-- BRK stores to three slots (R243). -/
theorem trapEntry_loadsKept (s : State) :
    LoadsKeptBut [stackAddr s.sp, stackAddr (s.sp - 1#8), stackAddr (s.sp - 2#8)] s s.trapEntry :=
  (((LoadsKeptBut.of_mem_eq (t := s.setFlag .breakCommand true) rfl _).store (by simp) _).store (by simp) _).store
    (by simp) _

/-- Every instruction completes with all memory kept but behind the slots it stores to. -/
theorem exec_loadsKept (i : Instr) (s : State) : Completes i s (LoadsKeptBut (storedSlots i s) s) := by
  have plain : ∀ {e : State → State}, LoadsKeptBut (storedSlots i s) s (e s.beginExecute) →
      ∃ t, runPlain i e s = .next t ∧ LoadsKeptBut (storedSlots i s) s t := fun {e} he => ⟨_, runPlain_eq i e s, he⟩
  have jump : ∀ {e : State → State}, LoadsKeptBut (storedSlots i s) s (e s.beginExecute) →
      ∃ t, runJump i e s = .next t ∧ LoadsKeptBut (storedSlots i s) s t := fun {e} he => ⟨_, runJump_eq i e s, he⟩
  have kept : ∀ {t : State}, t.mem = s.mem → LoadsKeptBut (storedSlots i s) s t := fun h => .of_mem_eq h _
  unfold Completes
  rw [exec_eq_execByMnemonic]
  unfold execByMnemonic
  cases hm : i.mnemonic
  case bcc | bcs | beq | bne | bmi | bpl | bvc | bvs => exact runBranch_completes fun _ _ _ => kept rfl
  case asl | lsr | rol | ror | inc | dec =>
    rw [storedSlots_of_operandStorer (by rw [hm]; decide)] at plain ⊢
    exact plain (modifyEffect_loadsKept (fun _ _ => rfl) i s.beginExecute)
  case sta | stx | sty =>
    rw [storedSlots_of_operandStorer (by rw [hm]; decide)] at plain ⊢
    exact plain (storeEffect_loadsKept i _ s.beginExecute)
  case pha | php =>
    rw [storedSlots_of_push (by rw [hm]; decide)] at plain ⊢
    exact plain (push_loadsKept _ s.beginExecute)
  case jsr =>
    rw [storedSlots_of_jsr hm] at jump ⊢
    exact jump (callSubroutine_loadsKept _ s.beginExecute)
  case brk =>
    rw [storedSlots_of_brk hm] at jump ⊢
    exact jump (trapEntry_loadsKept s.beginExecute)
  case jmp | rts | rti => exact jump (kept rfl)
  all_goals exact plain (kept rfl)

/-- Settles O49: a byte that reads differently is behind a stored slot, by `exec_loadsKept`. -/
theorem memoryChangedOnlyByStores : Obligations.MemoryChangedOnlyByStores := by
  intro i s t addr ht hne
  obtain ⟨slot, hslot, hcell⟩ : ∃ slot ∈ storedSlots i s, cellOf addr = cellOf slot := by
    by_contra! hother
    exact hne ((exec_loadsKept i s).elim ht addr hother)
  unfold storedSlots at hslot
  split_ifs at hslot with hoperand hpush hjsr hbrk
  · exact .inl ⟨hoperand, slot, Option.mem_toList.1 hslot, slot, List.mem_singleton_self slot, hcell⟩
  · exact .inr (.inl ⟨hpush, slot, hslot, hcell⟩)
  · exact .inr (.inr (.inl ⟨hjsr, slot, hslot, hcell⟩))
  · exact .inr (.inr (.inr ⟨hbrk, slot, hslot, hcell⟩))
  · exact absurd hslot List.not_mem_nil

/-! ### Stores and the next fetch (R57, R131, R298) -/

theorem byteAtPC_zero (s : State) : s.byteAtPC 0 = s.load s.pc := by
  simp [State.byteAtPC]

/-- The fetch succeeds on a mapped byte at `PC`, with an instruction of that opcode. -/
theorem fetch_of_mapped {s : State} (h : mapped (s.load s.pc) = true) :
    ∃ j, s.fetch = .ok j ∧ j.opcode = s.load s.pc := by
  rw [← byteAtPC_zero] at h ⊢
  cases hf : s.fetch with
  | ok j => exact ⟨j, rfl, opcode_of_decode hf⟩
  | error e =>
    obtain ⟨hunmapped, -⟩ := decode_error_iff.1 hf
    exact absurd h (by simp [hunmapped])

/-- A step executes the instruction fetched and records it (R131, R136). -/
theorem step_of_fetch {s : State} {j : Instr} (h : s.fetch = .ok j) :
    ∃ t, step s = .next t ∧ t.lastExecuted = some ⟨j.opcode, j.operand⟩ := by
  obtain ⟨t, ht, hrecord, -⟩ := exec_next j s
  exact ⟨t.noteRetired, by simp only [step, h, ht, afterExecute], hrecord⟩

/-- Settles O53: the byte at `PC` is the one stored, by the mirror rule, and a mapped one is fetched and executed. -/
theorem storesAreSeenByFetch : Obligations.StoresAreSeenByFetch := by
  intro i s addr pc v hm hv hcell
  have hload : ((s.store addr v).setPC pc).load pc = v := State.load_store_same hm hcell v
  obtain ⟨j, hj, hopcode⟩ := fetch_of_mapped (s := (s.store addr v).setPC pc)
    (by rw [State.setPC_pc, hload, ← hv]; exact mapped_opcode i)
  rw [State.setPC_pc, hload] at hopcode
  obtain ⟨t, ht, hrecord⟩ := step_of_fetch hj
  exact ⟨j, t, ht, hopcode, by rw [hrecord, hopcode]⟩

end Sys2Proof.Machine

namespace Sys2Proof

/-! ### Bytes that begin with an encoding (R70 to R73) -/

/-- What the decoder reads begins with the given bytes. -/
def BeginsWith (read : Nat → Byte) (bytes : List Byte) : Prop :=
  ∀ (k : Nat) (h : k < bytes.length), read k = bytes[k]

@[simp] theorem beginsWith_nil (read : Nat → Byte) : BeginsWith read [] :=
  fun _ h => absurd h (Nat.not_lt_zero _)

@[simp] theorem beginsWith_cons (read : Nat → Byte) (b : Byte) (bytes : List Byte) :
    BeginsWith read (b :: bytes) ↔ read 0 = b ∧ BeginsWith (fun k => read (k + 1)) bytes := by
  constructor
  · intro h
    exact ⟨h 0 (Nat.succ_pos _), fun k hk => h (k + 1) (Nat.succ_lt_succ hk)⟩
  · rintro ⟨h0, hrest⟩ k hk
    cases k with
    | zero => exact h0
    | succ k => exact hrest k (Nat.lt_of_succ_lt_succ hk)

theorem encode_of_operandBytes_zero {i : Instr} (h : i.format.operandBytes = 0) : encode i = [i.opcode] := by
  rw [encode, h]
  rfl

theorem encode_of_byte {i : Instr} {d : Byte} (h : i.format.operandBytes = 1) (ho : i.operand = some (zeroExtend d)) :
    encode i = [i.opcode, d] := by
  simp [encode, h, ho, operandBytesOf]

theorem encode_of_word {i : Instr} {w : Word} (h : i.format.operandBytes = 2) (ho : i.operand = some w) :
    encode i = [i.opcode, lowByte w, highByte w] := by
  simp [encode, h, ho, operandBytesOf]

theorem zeroExtend_inj {a b : Byte} : zeroExtend a = zeroExtend b ↔ a = b :=
  ⟨fun h => by simpa using congrArg lowByte h, congrArg zeroExtend⟩

theorem wordOf_eq_iff {hi lo : Byte} {w : Word} : wordOf hi lo = w ↔ lo = lowByte w ∧ hi = highByte w := by
  constructor
  · rintro rfl
    simp
  · rintro ⟨rfl, rfl⟩
    exact wordOf_high_low w

/-- An entry that takes an operand byte gives different instructions for different bytes. -/
theorem OpForm.Matches.byte_inj {b : Byte} {f : Byte → Instr} (h : (OpForm.byte f).Matches b) {d e : Byte} :
    f d = f e ↔ d = e := by
  refine ⟨fun hf => ?_, congrArg f⟩
  obtain ⟨-, -, hd⟩ := h d
  obtain ⟨-, -, he⟩ := h e
  rw [hf, he, Option.some_inj, zeroExtend_inj] at hd
  exact hd.symm

/-- An entry that takes an operand word gives different instructions for different words. -/
theorem OpForm.Matches.word_inj {b : Byte} {f : Word → Instr} (h : (OpForm.word f).Matches b) {w v : Word} :
    f w = f v ↔ w = v := by
  refine ⟨fun hf => ?_, congrArg f⟩
  obtain ⟨-, -, hw⟩ := h w
  obtain ⟨-, -, hv⟩ := h v
  rw [hf, hv, Option.some_inj] at hw
  exact hw.symm

/-- Once the opcode byte is the instruction's, decoding compares the operand bytes. -/
theorem decode_eq_ok_iff_of_opcode {read : Nat → Byte} {i : Instr} (h0 : read 0 = i.opcode) :
    decode read = .ok i ↔ BeginsWith read (encode i) := by
  have hm := opForm_matches i.opcode
  unfold decode
  rw [h0]
  rcases opForm_opcode i with hf | ⟨f, d, hf, rfl⟩ | ⟨f, w, hf, rfl⟩ <;> rw [hf] at hm ⊢
  · obtain ⟨-, hlen, -⟩ := hm
    simp [encode_of_operandBytes_zero hlen, h0]
  · obtain ⟨-, hlen, hoperand⟩ := hm d
    simp [encode_of_byte hlen hoperand, h0, hm.byte_inj]
  · obtain ⟨-, hlen, hoperand⟩ := hm w
    simp [encode_of_word hlen hoperand, h0, hm.word_inj, wordOf_eq_iff]

/-- Settles O2: either side fixes the opcode byte, and then `decode_eq_ok_iff_of_opcode` compares the operand bytes. -/
theorem decodeExactlyTheEncoding : Obligations.DecodeExactlyTheEncoding := by
  intro read i
  constructor
  · intro h
    exact (decode_eq_ok_iff_of_opcode (opcode_of_decode h).symm).1 h
  · intro h
    exact (decode_eq_ok_iff_of_opcode (h 0 (Nat.succ_pos _))).2 h

/-- Settles O1: fourteen closed evaluations of the decoder. -/
theorem writtenWordsDecode : Obligations.WrittenWordsDecode := by
  unfold Obligations.WrittenWordsDecode
  decide

/-! ### The unmapped opcodes and the host's tuples (R78, R83, R126) -/

theorem mapped_eq_false_iff {b : Byte} : mapped b = false ↔ opForm b = .unmapped := by
  unfold mapped
  cases opForm b <;> simp

/-- An instruction's opcode fixes its mnemonic and format (R74). -/
theorem descriptor_eq_of_opcode_eq {i j : Instr} (h : i.opcode = j.opcode) : i.descriptor = j.descriptor :=
  Option.some.inj (by rw [← described_opcode, ← described_opcode, h])

end Sys2Proof

namespace Sys2Proof.Machine

/-- All byte values, in rising order. -/
def allBytes : List Byte := (List.finRange 256).map BitVec.ofFin

theorem mem_allBytes (b : Byte) : b ∈ allBytes :=
  List.mem_map.2 ⟨b.toFin, List.mem_finRange _, rfl⟩

theorem nodup_allBytes : allBytes.Nodup :=
  (List.nodup_finRange 256).map fun _ _ h => congrArg BitVec.toFin h

/-- The list of R78 is what the opcode map of R74 leaves out. -/
theorem unmappedOpcodes_eq_filter : unmappedOpcodes = allBytes.filter (fun b => !mapped b) := by
  decide

theorem mem_unmappedOpcodes_iff (b : Byte) : b ∈ unmappedOpcodes ↔ mapped b = false := by
  simp [unmappedOpcodes_eq_filter, mem_allBytes]

theorem nodup_unmappedOpcodes : unmappedOpcodes.Nodup :=
  unmappedOpcodes_eq_filter ▸ nodup_allBytes.filter _

theorem step_of_unmapped {s : State} (h : mapped (s.load s.pc) = false) :
    step s = .fault (.unknownInstruction (s.load s.pc)) := by
  rw [← byteAtPC_zero] at h ⊢
  have hfetch : s.fetch = .error (.unknownOpcode (s.byteAtPC 0)) := decode_error_iff.2 ⟨h, rfl⟩
  simp only [step, hfetch, raised]

theorem step_of_mapped {s : State} (h : mapped (s.load s.pc) = true) : ∃ t, step s = .next t := by
  obtain ⟨j, hj, -⟩ := fetch_of_mapped h
  obtain ⟨t, ht, -⟩ := step_of_fetch hj
  exact ⟨t, ht⟩

theorem executeTuple_of_unmapped {op : Byte} (h : mapped op = false) (operand : Option Nat) (s : State) :
    executeTuple op operand s = .fault (.unknownInstruction op) := by
  simp only [executeTuple, mapped_eq_false_iff.1 h, instantiateForm]

/-- Settles O3: the list is the complement of the map, and dispatch faults exactly outside the map. -/
theorem unmappedOpcodesRaise : Obligations.UnmappedOpcodesRaise := by
  refine ⟨rfl, nodup_unmappedOpcodes, ?_, ?_, ?_⟩
  · intro s h
    exact step_of_unmapped ((mem_unmappedOpcodes_iff _).1 h)
  · intro op operand s h
    exact executeTuple_of_unmapped ((mem_unmappedOpcodes_iff op).1 h) operand s
  · intro s h
    rw [mem_unmappedOpcodes_iff, Bool.not_eq_false] at h
    exact step_of_mapped h

/-- The map's entry at an instruction's opcode, given a host operand: the same instruction with the operand masked to the width
of its format (R126). -/
theorem instantiateForm_opcode (i : Instr) (v : Nat) :
    ∃ j, instantiateForm (opForm i.opcode) v = some j ∧ j.opcode = i.opcode ∧
      (i.format.operandBytes = 0 → j = i) ∧
      (i.format.operandBytes = 1 → j.operand = some (zeroExtend (toByte v))) ∧
      (i.format.operandBytes = 2 → j.operand = some (toWord v)) := by
  have hm := opForm_matches i.opcode
  rcases opForm_opcode i with hf | ⟨f, d, hf, rfl⟩ | ⟨f, w, hf, rfl⟩ <;> rw [hf] at hm ⊢
  · obtain ⟨-, hlen, -⟩ := hm
    exact ⟨i, rfl, rfl, fun _ => rfl, by simp [hlen], by simp [hlen]⟩
  · obtain ⟨-, hlen, -⟩ := hm d
    obtain ⟨hopcode, -, hoperand⟩ := hm (toByte v)
    exact ⟨_, rfl, hopcode, by simp [hlen], fun _ => hoperand, by simp [hlen]⟩
  · obtain ⟨-, hlen, -⟩ := hm w
    obtain ⟨hopcode, -, hoperand⟩ := hm (toWord v)
    exact ⟨_, rfl, hopcode, by simp [hlen], by simp [hlen], fun _ => hoperand⟩

/-- What a host tuple with a mapped opcode does (R83, R132). -/
theorem executeTuple_of_instantiateForm {op : Byte} {operand : Option Nat} {j : Instr}
    (h : instantiateForm (opForm op) (operand.getD 0) = some j) (s : State) :
    executeTuple op operand s =
      if j.format.operandPresent operand then afterExecute (exec j s) else .refused (.missingOperand op) := by
  simp only [executeTuple, h]

theorem zeroExtend_toByte (v : Nat) : zeroExtend (toByte v) = BitVec.ofNat 16 (v % 0x100) := by
  apply BitVec.eq_of_toNat_eq
  rw [zeroExtend_toNat, toByte_toNat_eq, BitVec.toNat_ofNat]
  omega

theorem toWord_eq_ofNat_mod (v : Nat) : toWord v = BitVec.ofNat 16 (v % 0x10000) := by
  apply BitVec.eq_of_toNat_eq
  rw [toWord_toNat, BitVec.toNat_ofNat, Nat.mod_mod]

/-- Settles O7: `instantiateForm_opcode` names the instruction run, and its format decides between running and refusing. -/
theorem hostTupleIsMaskedOrRefused : Obligations.HostTupleIsMaskedOrRefused := by
  intro i s
  refine ⟨fun v => ?_, fun hlen => ?_, fun hlen => ?_⟩
  · obtain ⟨j, hj, hopcode, hnone, hbyte, hword⟩ := instantiateForm_opcode i v
    refine ⟨j, ?_, hopcode, hnone, ?_, ?_⟩
    · rw [executeTuple_of_instantiateForm (operand := some v) hj]
      simp [Format.operandPresent]
    · rwa [zeroExtend_toByte] at hbyte
    · rwa [toWord_eq_ofNat_mod] at hword
  · obtain ⟨j, hj, hopcode, -⟩ := instantiateForm_opcode i 0
    have hformat : j.format = i.format := congrArg Descriptor.format (descriptor_eq_of_opcode_eq hopcode)
    rw [executeTuple_of_instantiateForm (operand := none) hj, hformat]
    simp [Format.operandPresent, hlen.ne']
  · obtain ⟨j, hj, -, hnone, -⟩ := instantiateForm_opcode i 0
    rw [executeTuple_of_instantiateForm (operand := none) hj, hnone hlen]
    simp [Format.operandPresent, hlen]

/-! ### The page-cross penalty (R77, R124, R137) -/

/-- The un-indexed base of an access: the pointer of `INDY`, otherwise the operand (R124). -/
def accessBase (m : MemMode) (w : Word) (s : State) : Word :=
  match m with
  | .indy => zeroPagePointer (lowByte w) s
  | .zp | .zpx | .zpy | .abs | .absx | .absy | .indx => w

theorem pagesDiffer_iff (a b : Word) : pagesDiffer a b = true ↔ b.toNat / 0x100 ≠ a.toNat / 0x100 := by
  rw [pagesDiffer, bne_iff_ne, ← highByte_toNat, ← highByte_toNat, Ne, Ne, BitVec.toNat_inj, eq_comm]

/-- In the modes of the page-cross-check set, `PageCross` compares the pages of the base and the effective address (R124). -/
theorem pageCross_iff {m : MemMode} (h : m = .absx ∨ m = .absy ∨ m = .indy) (w : Word) (s : State) :
    pageCross m w s = true ↔ (ea m w s).toNat / 0x100 ≠ (accessBase m w s).toNat / 0x100 := by
  obtain rfl | rfl | rfl := h <;> exact pagesDiffer_iff _ _

/-- The second byte of a zero-page pointer lies at the operand's successor with its high byte cleared (R122). -/
theorem zeroExtend_add_one (d : Byte) :
    zeroExtend (d + 1#8) = BitVec.ofNat 16 ((zeroExtend d).toNat + 1) &&& 0x00FF#16 := by
  apply BitVec.eq_of_toNat_eq
  have hmask : ∀ n : Nat, n &&& 0xFF = n % 0x100 := fun n => Nat.and_two_pow_sub_one_eq_mod n 8
  rw [BitVec.toNat_and, zeroExtend_toNat, zeroExtend_toNat, BitVec.toNat_add, BitVec.toNat_ofNat, BitVec.toNat_ofNat,
    BitVec.toNat_ofNat, hmask]
  omega

/-- An instruction that is no branch charges its page-cross penalty (R137). -/
theorem exec_charges_pageCrossPenalty {i : Instr} (h : i.format ≠ .mode .rel) (s : State) :
    Completes i s fun t => t.lastExtraCycles = pageCrossPenalty i s := by
  unfold Completes
  by_cases hpc : i.mnemonic ∈ pcSetters
  · obtain ⟨⟨e, he⟩, hzero⟩ := exec_jump hpc h s
    rw [he, hzero]
    exact ⟨_, runJump_eq i e s, rfl⟩
  · obtain ⟨e, he⟩ := exec_plain hpc s
    rw [he]
    exact ⟨_, runPlain_eq i e s, rfl⟩

theorem storeAddress_of_mem {i : Instr} {m : MemMode} (h : i.format = .mode (.mem m)) (s : State) :
    storeAddress i s = some (ea m (operandWord i) s) := by
  simp only [storeAddress, h]

theorem pageCrossPenalty_of_mem {i : Instr} {m : MemMode} (h : i.format = .mode (.mem m)) (s : State) :
    pageCrossPenalty i s = if i.opcode ∈ pageCrossCheckSet ∧ pageCross m (operandWord i) s = true then 1 else 0 := by
  simp only [pageCrossPenalty, h]
  exact if_congr (by rw [Bool.and_eq_true, List.contains_iff_mem, operandWord]) rfl rfl

/-- In the modes of the page-cross-check set, the penalty compares the page of the base with that of the access (R124, R137). -/
theorem pageCrossPenalty_eq_ite {i : Instr} {m : MemMode} (h : i.format = .mode (.mem m))
    (hm : m = .absx ∨ m = .absy ∨ m = .indy) (s : State) :
    pageCrossPenalty i s =
      if i.opcode ∈ pageCrossCheckSet ∧ ∃ addr, storeAddress i s = some addr ∧
        addr.toNat / 0x100 ≠ (accessBase m (operandWord i) s).toNat / 0x100 then 1 else 0 := by
  rw [pageCrossPenalty_of_mem h, storeAddress_of_mem h]
  simp only [pageCross_iff hm, Option.some_inj, exists_eq_left']

/-- The base of an `INDY` access is the word at its operand, read without leaving page 0 (R122). -/
theorem accessBase_indy {i : Instr} (h : i.format = .mode (.mem .indy)) (s : State) :
    accessBase .indy (operandWord i) s =
      wordOf (s.load (BitVec.ofNat 16 ((operandWord i).toNat + 1) &&& 0x00FF#16)) (s.load (operandWord i)) := by
  obtain ⟨d, hd⟩ := operandWord_of_oneByte (i := i) (by rw [h]; rfl)
  rw [hd, accessBase, lowByte_zeroExtend, zeroPagePointer, zeroExtend_add_one]

end Sys2Proof.Machine

namespace Sys2Proof

open Machine

/-- Settles O51: the penalty charged is `pageCrossPenalty`, which the three formats of the check set turn into page numbers. -/
theorem pageCrossPenalty : Obligations.PageCrossPenalty := by
  intro i s hrel base
  obtain ⟨t, ht, hextra⟩ := exec_charges_pageCrossPenalty hrel s
  refine ⟨t, ht, hextra.trans ?_⟩
  by_cases hc : i.opcode ∈ pageCrossCheckSet
  · obtain ⟨m, hf, hm, hbase⟩ : ∃ m, i.format = .mode (.mem m) ∧ (m = .absx ∨ m = .absy ∨ m = .indy) ∧
        base = accessBase m (operandWord i) s := by
      obtain hf | hf | hf := format_of_pageCrossCheck hc
      · exact ⟨.absx, hf, by decide, by simp only [base, hf, accessBase]⟩
      · exact ⟨.absy, hf, by decide, by simp only [base, hf, accessBase]⟩
      · exact ⟨.indy, hf, by decide, by simp only [base, hf, accessBase_indy hf]⟩
    rw [hbase, pageCrossPenalty_eq_ite hf hm]
  · rw [pageCrossPenalty_eq_zero (by simpa using hc), if_neg fun h => hc h.1]

end Sys2Proof

/-! ### The flag algebra (R91, R92, R99, R100, R151) -/

namespace Sys2Proof.Machine

/-- Settles O12: `State.setFlag_flag` for the flag written and for another one; the masks are the definition's own. -/
theorem flagWriteTouchesOneBit : Obligations.FlagWriteTouchesOneBit :=
  fun f g b s => ⟨(State.setFlag_flag f b f s).trans (if_pos rfl),
    fun h => (State.setFlag_flag f b g s).trans (if_neg h), rfl⟩

/-- The low byte of an unsigned sum, read as a signed byte, is the signed sum reduced to -128..127. -/
theorem toByte_add_toInt (a m : Byte) (c : Nat) :
    (toByte (a.toNat + m.toNat + c)).toInt = (a.toInt + m.toInt + c).bmod 0x100 := by
  rw [toByte, BitVec.toInt_ofNat', BitVec.toInt_eq_toNat_bmod a, BitVec.toInt_eq_toNat_bmod m, Int.add_assoc,
    Int.bmod_add_bmod, Int.add_left_comm, Int.bmod_add_bmod, Int.add_left_comm, ← Int.add_assoc]
  rfl

/-- The low byte of a sum is the signed sum itself where that fits into a byte. -/
theorem toByte_add_toInt_of_fits {a m : Byte} {c : Nat} (hlo : -128 ≤ a.toInt + m.toInt + c)
    (hhi : a.toInt + m.toInt + c ≤ 127) : (toByte (a.toNat + m.toNat + c)).toInt = a.toInt + m.toInt + c := by
  rw [toByte_add_toInt]
  exact Int.bmod_eq_of_le (by omega) (by omega)

/-- The overflow test of R99 on a sum with carry: equal signs of the summands and another sign of the low byte mean that the
signed sum does not fit into a byte (R100). -/
theorem overflows_add_iff (a m : Byte) (c : Bool) :
    overflows (a.toNat + m.toNat + c.toNat) m a = true ↔
      a.toInt + m.toInt + (c.toNat : Int) < -128 ∨ 127 < a.toInt + m.toInt + (c.toNat : Int) := by
  have hc := c.toNat_le
  have ha := BitVec.le_toInt a
  have ha' := BitVec.toInt_lt (x := a)
  have hm := BitVec.le_toInt m
  have hm' := BitVec.toInt_lt (x := m)
  rw [overflows_iff, BitVec.msb_eq_toInt, BitVec.msb_eq_toInt, BitVec.msb_eq_toInt, toByte_add_toInt, Int.bmod_def]
  simp only [ne_eq, decide_eq_decide]
  omega

@[simp] theorem adc_a (m : Byte) (s : State) :
    (adc m s).a = toByte (s.a.toNat + m.toNat + (s.flag .carry).toNat) := rfl

@[simp] theorem adc_flag_overflow (m : Byte) (s : State) :
    (adc m s).flag .overflow = overflows (s.a.toNat + m.toNat + (s.flag .carry).toNat) m s.a := by
  simp [adc, State.carryIn]

/-- What ADC leaves in `A` and in V, in every form (R151). -/
theorem exec_adc_a_overflow {i : Instr} (h : i.mnemonic = .adc) (s : State) :
    Completes i s fun t =>
      t.a = toByte (s.a.toNat + (operandByte i s).toNat + (s.flag .carry).toNat) ∧
      t.flag .overflow = overflows (s.a.toNat + (operandByte i s).toNat + (s.flag .carry).toNat) (operandByte i s) s.a :=
  ⟨_, (exec_adc h s).trans (runPlain_eq ..), by simp [readEffect], by simp [readEffect]⟩

/-- Settles O20: V is the test of `overflows_add_iff`, and where it is clear `A` is the sum by `toByte_add_toInt_of_fits`. -/
theorem adcOverflowIsSignedOverflow : Obligations.AdcOverflowIsSignedOverflow := by
  intro i s h
  obtain ⟨t, ht, ha, hv⟩ := exec_adc_a_overflow h s
  have hiff := overflows_add_iff s.a (operandByte i s) (s.flag .carry)
  rw [← hv] at hiff
  refine ⟨t, ht, hiff, fun hclear => ?_⟩
  have hfits := mt hiff.2 (by simp [hclear])
  rw [ha]
  exact toByte_add_toInt_of_fits (by omega) (by omega)

end Sys2Proof.Machine

/-! ### Effective addresses (R113 to R122, R125) -/

namespace Sys2Proof.Machine

theorem lowByte_eq_toByte (w : Word) : lowByte w = toByte w.toNat :=
  BitVec.eq_of_toNat_eq (by rw [lowByte_toNat, toByte_toNat_eq])

theorem toByte_add (v : Nat) (b : Byte) : toByte v + b = toByte (v + b.toNat) := by
  rw [toByte, toByte, BitVec.ofNat_add, BitVec.ofNat_toNat, BitVec.setWidth_eq]

/-- An offset operand is indexed modulo 256: it never leaves page 0 (R114, R115, R121). -/
theorem lowByte_add (w : Word) (b : Byte) : lowByte w + b = toByte (w.toNat + b.toNat) := by
  rw [lowByte_eq_toByte, toByte_add]

/-- A word is indexed modulo 65536 (R125). -/
theorem add_zeroExtend_toNat (w : Word) (b : Byte) : (w + zeroExtend b).toNat = (w.toNat + b.toNat) % 0x10000 := by
  rw [BitVec.toNat_add, zeroExtend_toNat]

/-- Both bytes of a zero-page pointer are read inside page 0 (R121, R122). -/
theorem zeroPagePointer_toByte_toNat (v : Nat) (s : State) :
    (zeroPagePointer (toByte v) s).toNat =
      (s.load (BitVec.ofNat 16 ((v + 1) % 0x100))).toNat * 0x100 + (s.load (BitVec.ofNat 16 (v % 0x100))).toNat := by
  rw [zeroPagePointer, wordOf_toNat, toByte_add, zeroExtend_toByte, zeroExtend_toByte]
  rfl

/-- Settles O10: page-0 sums by `lowByte_add`, word sums by `add_zeroExtend_toNat`, pointers by `zeroPagePointer_toByte_toNat`. -/
theorem effectiveAddressesWrap : Obligations.EffectiveAddressesWrap := by
  intro w s
  refine ⟨?zp, ?zpx, ?zpy, rfl, add_zeroExtend_toNat w s.x, add_zeroExtend_toNat w s.y, ?indx, ?indy⟩
  case zp => rw [ea, eaZeroPage, zeroExtend_toNat, lowByte_toNat]
  case zpx => rw [ea, eaZeroPageX, zeroExtend_toNat, lowByte_add, toByte_toNat_eq]
  case zpy => rw [ea, eaZeroPageY, zeroExtend_toNat, lowByte_add, toByte_toNat_eq]
  case indx => rw [ea, eaIndexedIndirect, lowByte_add, zeroPagePointer_toByte_toNat]
  case indy => rw [ea, eaIndirectIndexed, add_zeroExtend_toNat, lowByte_eq_toByte, zeroPagePointer_toByte_toNat]

end Sys2Proof.Machine

namespace Sys2Proof.Machine

/-! ### `Step` and `Execute` run the same instruction (R131, R132, R139) -/

theorem step_eq_of_fetch {s : State} {i : Instr} (h : s.fetch = .ok i) : step s = afterExecute (exec i s) := by
  simp only [step, h]

/-- The fetch gives the instruction whose encoding stands at `PC` (R73, R131). -/
theorem fetch_of_encoding {s : State} {i : Instr}
    (h : ∀ (k : Nat) (hk : k < (encode i).length), s.load (s.pc + BitVec.ofNat 16 k) = (encode i)[k]) : s.fetch = .ok i :=
  (decodeExactlyTheEncoding s.byteAtPC i).2 h

/-- An instruction's own tuple passes the operand check and gives the instruction back: its operand already has the width of
its format, so the masks of R126 leave it. -/
theorem executeTuple_self (i : Instr) (s : State) :
    executeTuple i.opcode (i.operand.map BitVec.toNat) s = afterExecute (exec i s) := by
  have hm := opForm_matches i.opcode
  suffices instantiateForm (opForm i.opcode) ((i.operand.map BitVec.toNat).getD 0) = some i ∧
      i.format.operandPresent (i.operand.map BitVec.toNat) = true by
    obtain ⟨hinstr, hpresent⟩ := this
    rw [executeTuple_of_instantiateForm hinstr, if_pos hpresent]
  rcases opForm_opcode i with hf | ⟨f, d, hf, rfl⟩ | ⟨f, w, hf, rfl⟩ <;> rw [hf] at hm ⊢
  · obtain ⟨-, hlen, -⟩ := hm
    exact ⟨rfl, by simp [Format.operandPresent, hlen]⟩
  · obtain ⟨-, -, hoperand⟩ := hm d
    simp [instantiateForm, Format.operandPresent, hoperand, zeroExtend_toNat]
  · obtain ⟨-, -, hoperand⟩ := hm w
    simp [instantiateForm, Format.operandPresent, hoperand, toWord]

/-- Settles O6: both sides are `exec` of the fetched instruction, which always completes. -/
theorem executeOfFetchedTupleIsStep : Obligations.ExecuteOfFetchedTupleIsStep := by
  intro i s h
  obtain ⟨t, ht, -⟩ := step_of_fetch h
  exact ⟨(step_eq_of_fetch h).trans (executeTuple_self i s).symm, t, ht⟩

/-- Settles O5: the encoding at `PC` is what the fetch gives, and `afterExecute` adds the observer's note alone. -/
theorem stepRunsDecodedInstruction : Obligations.StepRunsDecodedInstruction := by
  intro i s h
  rw [step_eq_of_fetch (fetch_of_encoding h)]
  refine ⟨fun t ht => ?_, fun r hr => ?_, fun r hr => ?_⟩
  · rw [ht]
    rfl
  · rw [hr, afterExecute]
  · rw [hr, afterExecute]

/-! ### Where `lastWrite` points (R22, R132) -/

/-- The address in the record of the last store, if there is one. -/
def State.lastWriteAddress (s : State) : Option Word :=
  s.lastWrite.map Prod.fst

theorem storeEffect_lastWriteAddress (i : Instr) (value : State → Byte) {s : State} (h : s.lastWrite = none) :
    (storeEffect i value s).lastWriteAddress = storeAddress i s := by
  unfold storeEffect
  split
  next ha => rw [State.lastWriteAddress, h, ha, Option.map_none]
  next addr ha => exact ha.symm

/-- A read-modify-write on `A` stores nothing. -/
theorem modifyEffect_lastWriteAddress {op : Byte → State → Byte × State} (hop : ∀ b t, (op b t).2.lastWrite = t.lastWrite)
    (i : Instr) {s : State} (h : s.lastWrite = none) : (modifyEffect i op s).lastWriteAddress = storeAddress i s := by
  obtain ⟨ha, he⟩ | ⟨addr, ha, he⟩ := modifyEffect_cases i op s
  · rw [ha, he, State.lastWriteAddress, State.setA_lastWrite, hop, h, Option.map_none]
  · rw [ha, he]
    rfl

theorem storedSlots_of_storeless {i : Instr} (hstack : i.mnemonic ∉ stackStorers)
    (hoperand : i.mnemonic ∉ operandStorers) (s : State) : storedSlots i s = [] := by
  simp only [stackStorers, List.mem_cons, List.not_mem_nil, or_false, not_or] at hstack
  simp [storedSlots, hoperand, hstack]

/-- Every instruction completes with `lastWrite` naming the last slot it stores to, and none when it stores nothing. -/
theorem exec_lastWriteAddress (i : Instr) (s : State) :
    Completes i s fun t => t.lastWriteAddress = (storedSlots i s).getLast? := by
  have plain : ∀ {e : State → State}, (e s.beginExecute).lastWriteAddress = (storedSlots i s).getLast? →
      ∃ t, runPlain i e s = .next t ∧ t.lastWriteAddress = (storedSlots i s).getLast? :=
    fun {e} he => ⟨_, runPlain_eq i e s, he⟩
  have jump : ∀ {e : State → State}, (e s.beginExecute).lastWriteAddress = (storedSlots i s).getLast? →
      ∃ t, runJump i e s = .next t ∧ t.lastWriteAddress = (storedSlots i s).getLast? :=
    fun {e} he => ⟨_, runJump_eq i e s, he⟩
  have operand : i.mnemonic ∈ operandStorers → (storedSlots i s).getLast? = storeAddress i s := fun h => by
    rw [storedSlots_of_operandStorer h]
    cases storeAddress i s <;> rfl
  have storeless : i.mnemonic ∉ stackStorers ∧ i.mnemonic ∉ operandStorers → none = (storedSlots i s).getLast? :=
    fun ⟨hstack, hoperand⟩ => by rw [storedSlots_of_storeless hstack hoperand, List.getLast?_nil]
  unfold Completes
  rw [exec_eq_execByMnemonic]
  unfold execByMnemonic
  cases hm : i.mnemonic
  case bcc | bcs | beq | bne | bmi | bpl | bvc | bvs =>
    exact runBranch_completes fun _ _ _ => storeless (by rw [hm]; decide)
  case asl | lsr | rol | ror | inc | dec =>
    exact plain ((modifyEffect_lastWriteAddress (fun _ _ => rfl) i rfl).trans (operand (by rw [hm]; decide)).symm)
  case sta | stx | sty =>
    exact plain ((storeEffect_lastWriteAddress i _ rfl).trans (operand (by rw [hm]; decide)).symm)
  case pha | php => exact plain (by rw [storedSlots_of_push (by rw [hm]; decide)]; rfl)
  case jsr => exact jump (by rw [storedSlots_of_jsr hm]; rfl)
  case brk => exact jump (by rw [storedSlots_of_brk hm]; rfl)
  case jmp | rts | rti => exact jump (storeless (by rw [hm]; decide))
  all_goals exact plain (storeless (by rw [hm]; decide))

/-- Settles O52: completion and the records by `exec_next`, `lastWrite` by `exec_lastWriteAddress`. -/
theorem recordsOfEveryInstruction : Obligations.RecordsOfEveryInstruction := by
  intro i s
  obtain ⟨t, ht, hrecord, hobs⟩ := exec_next i s
  have hlast := (exec_lastWriteAddress i s).elim ht
  refine ⟨t, ht, hrecord, hobs, fun hstack hnone => ?_, fun addr hoperand haddr => ?_⟩
  · have hslots : storedSlots i s = [] := by
      by_cases h : i.mnemonic ∈ operandStorers
      · rw [storedSlots_of_operandStorer h, hnone h, Option.toList_none]
      · exact storedSlots_of_storeless hstack h s
    rw [hslots] at hlast
    exact Option.map_eq_none_iff.1 hlast
  · rw [storedSlots_of_operandStorer hoperand, haddr] at hlast
    obtain ⟨⟨a, v⟩, hw, rfl⟩ := Option.map_eq_some_iff.1 hlast
    exact ⟨v, hw⟩

end Sys2Proof.Machine

/-! ### Arithmetic, logic and compare (R151 to R159) -/

namespace Sys2Proof.Machine

/-- An instruction that reads its operand and writes nothing but `A` and the flags: it completes with those of `u`, the rest as
it was (R150). -/
theorem read_completes {i : Instr} {op : Byte → State → State} {s u : State} {regs : List RegName} {flags : List Flag}
    (he : exec i s = runPlain i (readEffect i op) s)
    (hu : op (operandByte i s) s.beginExecute = (s.beginExecute.setA u.a).setP u.p)
    (ha : RegName.a ∉ regs → u.a = s.a) (hf : ∀ f, f ∉ flags → u.flag f = s.flag f) :
    Completes i s fun t => t.a = u.a ∧ (∀ f, t.flag f = u.flag f) ∧ ReadOnlyEnd i s t ∧ Frame i s t regs flags [] := by
  refine ⟨_, he.trans (runPlain_eq ..), ?_⟩
  rw [readEffect, operandByte_beginExecute, hu]
  exact ⟨rfl, fun _ => rfl, ⟨advance_pc i _, rfl, rfl⟩,
    { a_kept := ha, x_kept := fun _ => rfl, y_kept := fun _ => rfl, sp_kept := fun _ => rfl, flag_kept := hf,
      mem_kept := fun _ _ => rfl, executed := rfl, obs_kept := rfl }⟩

/-! #### ADC and SBC -/

/-- What ADC and SBC share: a sum goes to `A`, and the flags are its Z, N and V and a carry out of the instruction's own. -/
def sumToA (result : Nat) (carry : Bool) (m : Byte) (s : State) : State :=
  (((s.setFlag .carry carry).setZN result).setV result m s.a).setA (toByte result)

theorem adc_eq_sumToA (m : Byte) (s : State) :
    adc m s = sumToA (s.a.toNat + m.toNat + (s.flag .carry).toNat)
      (decide (0xFF < s.a.toNat + m.toNat + (s.flag .carry).toNat)) m s := rfl

theorem sbc_eq_sumToA (m : Byte) (s : State) :
    sbc m s = sumToA (s.a.toNat + (twoComplement m).toNat + (s.flag .carry).toNat)
      (decide (0 ≤ signedByte (s.a.toNat + (twoComplement m).toNat + (s.flag .carry).toNat))) m s := rfl

theorem sumToA_a (result : Nat) (carry : Bool) (m : Byte) (s : State) :
    (sumToA result carry m s).a = toByte result := rfl

theorem sumToA_flag (result : Nat) (carry : Bool) (m : Byte) (f : Flag) (s : State) :
    (sumToA result carry m s).flag f =
      if f = .overflow then overflows result m s.a
      else if f = .negative then bitValue 7 (toByte result)
      else if f = .zero then toByte result == 0#8
      else if f = .carry then carry
      else s.flag f := by
  simp [sumToA]

/-- The whole of R151 and R152 but for the sum and the carry out, which are the instruction's own. -/
theorem sum_completes {i : Instr} {op : Byte → State → State} {s : State} {result : Nat} {carry : Bool}
    (he : exec i s = runPlain i (readEffect i op) s)
    (hop : op (operandByte i s) s.beginExecute = sumToA result carry (operandByte i s) s.beginExecute) :
    Completes i s fun t =>
      t.a = toByte result ∧ t.flag .carry = carry ∧ ShowsZN t.a t ∧
      (t.flag .overflow = true ↔ (operandByte i s).msb = s.a.msb ∧ t.a.msb ≠ s.a.msb) ∧
      ReadOnlyEnd i s t ∧ Frame i s t [.a] [.carry, .zero, .negative, .overflow] [] := by
  obtain ⟨t, ht, ha, hflag, hrest⟩ := read_completes (u := sumToA result carry (operandByte i s) s) (regs := [.a])
    (flags := [.carry, .zero, .negative, .overflow]) he hop (absurd (by decide)) fun f hf => by simp_all [sumToA_flag]
  rw [sumToA_a] at ha
  refine ⟨t, ht, ha, ?carryOut, showsZN_of ?zero ?negative, ?overflow, hrest⟩
  case carryOut => simp [hflag, sumToA_flag]
  case zero => simp [hflag, sumToA_flag, ha]
  case negative => simp [hflag, sumToA_flag, ha]
  case overflow => rw [hflag, sumToA_flag, if_pos rfl, ha, overflows_iff]

/-- Settles O19: `sum_completes` with ADC's sum, whose carry out is bit 8. -/
theorem adcAddsWithCarry : Obligations.AdcAddsWithCarry := by
  intro i s h
  obtain ⟨t, ht, ha, hcarry, hrest⟩ := sum_completes (exec_adc h s) (adc_eq_sumToA (operandByte i s) s.beginExecute)
  exact ⟨t, ht, ha ▸ toByte_toNat_eq _, hcarry ▸ decide_eq_true_iff, hrest⟩

/-- Settles O21: `sum_completes` with SBC's sum, whose carry out is a clear bit 7 of the sum. -/
theorem sbcAddsTwosComplement : Obligations.SbcAddsTwosComplement := by
  intro i s h
  obtain ⟨t, ht, ha, hcarry, hrest⟩ := sum_completes (exec_sbc h s) (sbc_eq_sumToA (operandByte i s) s.beginExecute)
  refine ⟨t, ht, ?_, ?_, hrest⟩
  · rw [ha, toByte_toNat_eq, twoComplement_toNat]; rfl
  · rw [hcarry, decide_eq_true_iff, signedByte_nonneg, ha, toByte_toNat_eq]

/-- Settles O22: the operand and its two's complement cancel modulo 256. -/
theorem sbcAfterAdcAddsBothCarries : Obligations.SbcAfterAdcAddsBothCarries := by
  intro m c s
  have hadc : ∀ t, operandByte (.adcImm m) t = m := fun _ => lowByte_byteOperand m
  have hsbc : ∀ t, operandByte (.sbcImm m) t = m := fun _ => lowByte_byteOperand m
  obtain ⟨t, ht, hta, -⟩ := adcAddsWithCarry (.adcImm m) s rfl
  obtain ⟨u, hu, hua, -⟩ := sbcAddsTwosComplement (.sbcImm m) (t.setFlag .carry (c.getLsbD 0)) rfl
  have hcarry : (c.getLsbD 0).toNat = c.toNat % 2 := (Nat.toNat_testBit c.toNat 0).trans (by simp)
  refine ⟨t, u, ht, hu, ?_⟩
  rw [hadc] at hta
  rw [hsbc, State.setFlag_a, State.setFlag_flag, if_pos rfl, hcarry, hta] at hua
  have := m.isLt
  omega

/-! #### AND, ORA and EOR -/

theorem logicResult_flag (v : Byte) (f : Flag) (s : State) :
    (logicResult v s).flag f =
      if f = .negative then bitValue 7 v else if f = .zero then v == 0#8 else s.flag f := by
  simp [logicResult]

/-- The rule that R153 to R155 share: a result goes to `A`, and Z and N are its own. -/
theorem logic_completes {i : Instr} {op : Byte → State → State} {s : State} {result : Byte}
    (he : exec i s = runPlain i (readEffect i op) s)
    (hop : op (operandByte i s) s.beginExecute = logicResult result s.beginExecute) :
    Completes i s fun t =>
      t.a = result ∧ ShowsZN result t ∧ ReadOnlyEnd i s t ∧ Frame i s t [.a] [.zero, .negative] [] := by
  obtain ⟨t, ht, ha, hflag, hrest⟩ := read_completes (u := logicResult result s) (regs := [.a])
    (flags := [.zero, .negative]) he hop (absurd (by decide)) fun f hf => by simp_all [logicResult_flag]
  exact ⟨t, ht, ha, showsZN_of (by simp [hflag, logicResult_flag]) (by simp [hflag, logicResult_flag]), hrest⟩

/-- Settles O23: `logic_completes` for each of the three results. -/
theorem logicWritesA : Obligations.LogicWritesA :=
  fun _ s => ⟨fun h => logic_completes (exec_and h s) rfl, fun h => logic_completes (exec_ora h s) rfl,
    fun h => logic_completes (exec_eor h s) rfl⟩

/-! #### CMP, CPX and CPY -/

theorem compareBytes_flag (register m : Byte) (f : Flag) (s : State) :
    (compareBytes register m s).flag f =
      if f = .negative then bitValue 7 (toByte (0x100 + register.toNat - m.toNat))
      else if f = .zero then toByte (0x100 + register.toNat - m.toNat) == 0#8
      else if f = .carry then decide (m.toNat ≤ register.toNat)
      else s.flag f := by
  simp [compareBytes]

/-- The low byte of a compare's result is zero exactly when the bytes are equal (R156). -/
theorem toByte_compare_eq_zero_iff (register m : Byte) :
    toByte (0x100 + register.toNat - m.toNat) = 0#8 ↔ register = m := by
  have := register.isLt
  have := m.isLt
  rw [← BitVec.toNat_inj, ← BitVec.toNat_inj, toByte_toNat_eq, BitVec.toNat_ofNat]
  omega

/-- The rule that R156 to R158 share: C, Z and N from the comparison, and nothing written. -/
theorem compare_completes {i : Instr} {op : Byte → State → State} {s : State} {register : Byte}
    (he : exec i s = runPlain i (readEffect i op) s)
    (hop : op (operandByte i s) s.beginExecute = compareBytes register (operandByte i s) s.beginExecute) :
    Completes i s fun t =>
      (t.flag .carry = true ↔ (operandByte i s).toNat ≤ register.toNat) ∧
      (t.flag .zero = true ↔ register = operandByte i s) ∧
      (t.flag .negative = true ↔ 0x80 ≤ (0x100 + register.toNat - (operandByte i s).toNat) % 0x100) ∧
      ReadOnlyEnd i s t ∧ Frame i s t [] [.carry, .zero, .negative] [] := by
  obtain ⟨t, ht, -, hflag, hrest⟩ := read_completes (u := compareBytes register (operandByte i s) s) (regs := [])
    (flags := [.carry, .zero, .negative]) he hop (fun _ => rfl) fun f hf => by simp_all [compareBytes_flag]
  refine ⟨t, ht, ?carry, ?zero, ?negative, hrest⟩
  case carry => simp [hflag, compareBytes_flag]
  case zero => simp [hflag, compareBytes_flag, toByte_compare_eq_zero_iff]
  case negative => rw [hflag, compareBytes_flag, if_pos rfl, bitValue_seven, toByte_toNat_eq]

/-- Settles O24: `compare_completes` for each of the three registers. -/
theorem comparesSetFlagsOnly : Obligations.ComparesSetFlagsOnly :=
  fun _ s => ⟨fun h => compare_completes (exec_cmp h s) rfl, fun h => compare_completes (exec_cpx h s) rfl,
    fun h => compare_completes (exec_cpy h s) rfl⟩

/-! #### BIT -/

theorem bitTest_flag (m : Byte) (f : Flag) (s : State) :
    (bitTest m s).flag f =
      if f = .negative then m.getLsbD 7
      else if f = .overflow then m.getLsbD 6
      else if f = .zero then s.a &&& m == 0#8
      else s.flag f := by
  simp [bitTest, bitValue]

/-- Settles O25: `read_completes` with the flags of `bitTest_flag`. -/
theorem bitTestsMemory : Obligations.BitTestsMemory := by
  intro i s h
  obtain ⟨t, ht, -, hflag, hrest⟩ := read_completes (u := bitTest (operandByte i s) s) (regs := [])
    (flags := [.zero, .overflow, .negative]) (exec_bit h s) rfl (fun _ => rfl) fun f hf => by simp_all [bitTest_flag]
  refine ⟨t, ht, ?zero, ?overflow, ?negative, hrest⟩
  case zero => simp [hflag, bitTest_flag]
  case overflow => simp [hflag, bitTest_flag]
  case negative => simp [hflag, bitTest_flag]

end Sys2Proof.Machine

/-! ### Shifts, rotates, increments and decrements (R171 to R180) -/

namespace Sys2Proof.Machine

/-! #### The flags of a result -/

theorem flagOf_withZN (v : Byte) (f : Flag) (p : Byte) :
    flagOf f (withZN v.toNat p) =
      if f = .negative then bitValue 7 v else if f = .zero then v == 0#8 else flagOf f p := by
  simp [withZN, withNegative, withZero]

/-- Flags written by `SetZN(v)` are those of `v`, whatever `P` was before (R97, R98). -/
theorem showsZN_of_withZN {t : State} {v p : Byte} (h : t.p = withZN v.toNat p) : ShowsZN v t := by
  apply showsZN_of <;> rw [State.flag_eq, h, flagOf_withZN] <;> rfl

theorem flagOf_withZN_other {f : Flag} (hf : f ∉ [Flag.zero, .negative]) (v p : Byte) :
    flagOf f (withZN v.toNat p) = flagOf f p := by
  simp only [List.mem_cons, List.not_mem_nil, or_false, not_or] at hf
  obtain ⟨hz, hn⟩ := hf
  rw [flagOf_withZN, if_neg hn, if_neg hz]

/-! #### The values shifted, rotated and counted -/

theorem shiftLeft_one_toNat (b : Byte) : (b <<< 1).toNat = b.toNat * 2 % 0x100 := by
  rw [BitVec.toNat_shiftLeft, Nat.shiftLeft_eq]

/-- The bit that ROL injects lands in the vacated bit 0, so the disjunction is a sum (R173). -/
theorem shiftLeft_one_or_carry_toNat (b : Byte) (c : Bool) :
    ((b <<< 1) ||| (if c then 0x01#8 else 0#8)).toNat = (b.toNat * 2 + c.toNat) % 0x100 := by
  have hvacated : (b <<< 1) &&& 1#8 = 0#8 := by
    ext k hk
    rcases k with _ | k <;> simp
  cases c
  · rw [if_neg Bool.false_ne_true, BitVec.or_zero]
    exact shiftLeft_one_toNat b
  · rw [if_pos rfl, ← BitVec.add_eq_or_of_and_eq_zero _ _ hvacated, BitVec.toNat_add, shiftLeft_one_toNat,
      Nat.mod_add_mod]
    rfl

theorem ushiftRight_one_toNat (b : Byte) : (b >>> 1).toNat = b.toNat / 2 := by
  rw [BitVec.toNat_ushiftRight, Nat.shiftRight_eq_div_pow]

/-- The bit that ROR injects lands in the vacated bit 7, so the disjunction is a sum (R174). -/
theorem ushiftRight_one_or_carry_toNat (b : Byte) (c : Bool) :
    ((b >>> 1) ||| (if c then 0x80#8 else 0#8)).toNat = b.toNat / 2 + c.toNat * 0x80 := by
  cases c
  · rw [if_neg Bool.false_ne_true, BitVec.or_zero]
    exact ushiftRight_one_toNat b
  · have hlt : (b >>> 1).toNat < 2 ^ 7 := by
      have := b.isLt
      rw [ushiftRight_one_toNat]
      omega
    rw [if_pos rfl, BitVec.toNat_or, Nat.or_comm]
    calc 0x80 ||| (b >>> 1).toNat
      _ = 0x80 + (b >>> 1).toNat := (Nat.two_pow_add_eq_or_of_lt hlt 1).symm
      _ = b.toNat / 2 + 1 * 0x80 := by rw [ushiftRight_one_toNat]; omega

theorem add_one_toNat (b : Byte) : (b + 1#8).toNat = (b.toNat + 1) % 0x100 := by
  rw [BitVec.toNat_add]
  rfl

/-- Counting down is adding 255 modulo 256. -/
theorem sub_one_toNat (b : Byte) : (b - 1#8).toNat = (b.toNat + 0xFF) % 0x100 := by
  rw [BitVec.toNat_sub, Nat.add_comm]
  rfl

/-! #### ASL, LSR, ROL and ROR -/

theorem shifted_eq_setP (new : Byte) (out : Bool) (s : State) :
    shifted new out s = (new, s.setP (withZN new.toNat (withFlag .carry out s.p))) := rfl

/-- The rule that R171 to R174 share: a new value of the operand, Z and N from it, and C the bit shifted out. -/
theorem shift_completes {i : Instr} {op : Byte → State → Byte × State} {s : State} {new : Byte} {out : Bool} {n : Nat}
    (hm : Memory.wf s.mem) (h : i.mnemonic ∈ [Mnemonic.asl, .lsr, .rol, .ror])
    (he : exec i s = runPlain i (modifyEffect i op) s)
    (hop : ∀ t : State, t.p = s.p → op (operandByte i s) t = shifted new out t) (hnew : new.toNat = n) :
    Completes i s fun t => ∃ new : Byte, new.toNat = n ∧ t.flag .carry = out ∧ ShowsZN new t ∧
      ModifiesOperand i s t new [.carry, .zero, .negative] := by
  have hkept : ∀ f, f ∉ [Flag.carry, .zero, .negative] →
      flagOf f (withZN new.toNat (withFlag .carry out s.p)) = s.flag f := fun f hf => by
    obtain ⟨hcarry, hzn⟩ := List.ne_and_not_mem_of_not_mem_cons hf
    rw [flagOf_withZN_other hzn, flagOf_withFlag, if_neg hcarry, State.flag_eq]
  obtain ⟨t, ht, hp, hmodifies⟩ := modify_completes hm (List.mem_append_left [.inc, .dec] h) he
    (fun t htp => by rw [hop t htp, shifted_eq_setP, htp]) hkept
  refine ⟨t, ht, new, hnew, ?_, showsZN_of_withZN hp, hmodifies⟩
  rw [State.flag_eq, hp, flagOf_withZN_other (by decide), flagOf_withFlag, if_pos rfl]

/-- ROL sees the carry that was there before it. -/
theorem rol_of_p_eq {s t : State} (h : t.p = s.p) (b : Byte) :
    rol b t = shifted ((b <<< 1) ||| (if s.flag .carry then 0x01#8 else 0#8)) (bitValue 7 b) t := by
  rw [rol, State.flag_eq, h, ← State.flag_eq]

/-- ROR sees the carry that was there before it. -/
theorem ror_of_p_eq {s t : State} (h : t.p = s.p) (b : Byte) :
    ror b t = shifted ((b >>> 1) ||| (if s.flag .carry then 0x80#8 else 0#8)) (bitValue 0 b) t := by
  rw [ror, State.flag_eq, h, ← State.flag_eq]

/-- Settles O26: `shift_completes` with the values of the two left shifts. -/
theorem leftShiftsModifyOperand : Obligations.LeftShiftsModifyOperand := by
  intro i s hm
  refine ⟨fun h => ?asl, fun h => ?rol⟩
  case asl =>
    exact shift_completes hm (by rw [h]; decide) (exec_asl h s) (fun _ _ => rfl) (shiftLeft_one_toNat _)
  case rol =>
    exact shift_completes hm (by rw [h]; decide) (exec_rol h s) (fun _ ht => rol_of_p_eq ht _)
      (shiftLeft_one_or_carry_toNat _ _)

/-- Settles O27: `shift_completes` with the values of the two right shifts. -/
theorem rightShiftsModifyOperand : Obligations.RightShiftsModifyOperand := by
  intro i s hm
  refine ⟨fun h => ?lsr, fun h => ?ror⟩
  case lsr =>
    exact shift_completes hm (by rw [h]; decide) (exec_lsr h s) (fun _ _ => rfl) (ushiftRight_one_toNat _)
  case ror =>
    exact shift_completes hm (by rw [h]; decide) (exec_ror h s) (fun _ ht => ror_of_p_eq ht _)
      (ushiftRight_one_or_carry_toNat _ _)

/-! #### INC and DEC -/

/-- The rule that R175 and R176 share: a new value of the operand, and Z and N from it. -/
theorem incDec_completes {i : Instr} {op : Byte → State → Byte × State} {s : State} {new : Byte} {n : Nat}
    (hm : Memory.wf s.mem) (h : i.mnemonic ∈ [Mnemonic.inc, .dec]) (he : exec i s = runPlain i (modifyEffect i op) s)
    (hop : ∀ t : State, op (operandByte i s) t = (new, t.setZN new.toNat)) (hnew : new.toNat = n) :
    Completes i s fun t => ∃ new : Byte, new.toNat = n ∧ ShowsZN new t ∧
      ModifiesOperand i s t new [.zero, .negative] := by
  obtain ⟨t, ht, hp, hmodifies⟩ := modify_completes (p := withZN new.toNat s.p) hm
    (List.mem_append_right [.asl, .lsr, .rol, .ror] h) he (fun t htp => by rw [hop, ← htp]; rfl)
    fun f hf => flagOf_withZN_other hf new s.p
  exact ⟨t, ht, new, hnew, showsZN_of_withZN hp, hmodifies⟩

/-- Settles O28: `incDec_completes` up and down. -/
theorem incDecModifyMemory : Obligations.IncDecModifyMemory := by
  intro i s hm
  refine ⟨fun h => ?inc, fun h => ?dec⟩
  case inc => exact incDec_completes hm (by rw [h]; decide) (exec_inc h s) (fun _ => rfl) (add_one_toNat _)
  case dec => exact incDec_completes hm (by rw [h]; decide) (exec_dec h s) (fun _ => rfl) (sub_one_toNat _)

/-! #### INX, INY, DEX and DEY -/

/-- An instruction that writes the registers it names and takes Z and N from a value: it completes with `a`, `x` and `y` in
`A`, `X` and `Y`, and the rest as it was. -/
theorem registerResult_completes {i : Instr} {effect : State → State} {s : State} {v a x y : Byte} {regs : List RegName}
    (he : exec i s = runPlain i effect s)
    (heffect : effect s.beginExecute = (((s.beginExecute.setZN v.toNat).setA a).setX x).setY y)
    (ha : RegName.a ∉ regs → a = s.a) (hx : RegName.x ∉ regs → x = s.x) (hy : RegName.y ∉ regs → y = s.y) :
    Completes i s fun t => (t.a = a ∧ t.x = x ∧ t.y = y) ∧ ShowsZN v t ∧ ReadOnlyEnd i s t ∧
      Frame i s t regs [.zero, .negative] [] := by
  refine ⟨_, he.trans (runPlain_eq ..), ?_⟩
  rw [heffect]
  exact ⟨⟨rfl, rfl, rfl⟩, showsZN_of_withZN rfl, ⟨advance_pc i _, rfl, rfl⟩,
    { a_kept := ha, x_kept := hx, y_kept := hy, sp_kept := fun _ => rfl,
      flag_kept := fun f hf => flagOf_withZN_other hf v s.p, mem_kept := fun _ _ => rfl, executed := rfl,
      obs_kept := rfl }⟩

/-- The rule that INX and DEX share (R177, R179). -/
theorem countX_completes {i : Instr} {effect : State → State} {s : State} {new : Byte} {n : Nat}
    (he : exec i s = runPlain i effect s) (heffect : effect s.beginExecute = countX new s.beginExecute)
    (hpenalty : pageCrossPenalty i s = 0) (hnew : new.toNat = n) :
    Completes i s fun t => t.x.toNat = n ∧ ShowsZN t.x t ∧ ReadOnlyEnd i s t ∧ t.lastExtraCycles = 0 ∧
      Frame i s t [.x] [.zero, .negative] [] := by
  obtain ⟨t, ht, ⟨-, rfl, -⟩, hzn, ⟨hpc, hlast, hextra⟩, hframe⟩ :=
    registerResult_completes (v := new) (a := s.a) (x := new) (y := s.y) (regs := [.x]) he heffect
      (fun _ => rfl) (absurd (by decide)) (fun _ => rfl)
  exact ⟨t, ht, hnew, hzn, ⟨hpc, hlast, hextra⟩, hextra.trans hpenalty, hframe⟩

/-- The rule that INY and DEY share (R178, R180). -/
theorem countY_completes {i : Instr} {effect : State → State} {s : State} {new : Byte} {n : Nat}
    (he : exec i s = runPlain i effect s) (heffect : effect s.beginExecute = countY new s.beginExecute)
    (hpenalty : pageCrossPenalty i s = 0) (hnew : new.toNat = n) :
    Completes i s fun t => t.y.toNat = n ∧ ShowsZN t.y t ∧ ReadOnlyEnd i s t ∧ t.lastExtraCycles = 0 ∧
      Frame i s t [.y] [.zero, .negative] [] := by
  obtain ⟨t, ht, ⟨-, -, rfl⟩, hzn, ⟨hpc, hlast, hextra⟩, hframe⟩ :=
    registerResult_completes (v := new) (a := s.a) (x := s.x) (y := new) (regs := [.y]) he heffect
      (fun _ => rfl) (fun _ => rfl) (absurd (by decide))
  exact ⟨t, ht, hnew, hzn, ⟨hpc, hlast, hextra⟩, hextra.trans hpenalty, hframe⟩

/-- Settles O29: `countX_completes` and `countY_completes`, up and down. -/
theorem indexCountingWraps : Obligations.IndexCountingWraps := by
  intro s
  refine ⟨?inx, ?iny, ?dex, ?dey⟩
  case inx => exact countX_completes (exec_inx rfl s) rfl rfl (add_one_toNat s.x)
  case iny => exact countY_completes (exec_iny rfl s) rfl rfl (add_one_toNat s.y)
  case dex => exact countX_completes (exec_dex rfl s) rfl rfl (sub_one_toNat s.x)
  case dey => exact countY_completes (exec_dey rfl s) rfl rfl (sub_one_toNat s.y)

end Sys2Proof.Machine

/-! ### Loads, stores and transfers (R191 to R202) -/

namespace Sys2Proof.Machine

/-! #### A byte written to a register, with Z and N from it

A load's byte is its operand, a transfer's is another register; the rest of the rule is the same (R190). -/

theorem toA_completes {i : Instr} {effect : State → State} {s : State} {v : Byte} (he : exec i s = runPlain i effect s)
    (heffect : effect s.beginExecute = toA v s.beginExecute) :
    Completes i s fun t =>
      t.a = v ∧ ShowsZN v t ∧ ReadOnlyEnd i s t ∧ Frame i s t [.a] [.zero, .negative] [] := by
  obtain ⟨t, ht, ⟨ha, -, -⟩, hrest⟩ := registerResult_completes (v := v) (a := v) (x := s.x) (y := s.y) (regs := [.a])
    he heffect (absurd (by decide)) (fun _ => rfl) (fun _ => rfl)
  exact ⟨t, ht, ha, hrest⟩

theorem toX_completes {i : Instr} {effect : State → State} {s : State} {v : Byte} (he : exec i s = runPlain i effect s)
    (heffect : effect s.beginExecute = toX v s.beginExecute) :
    Completes i s fun t =>
      t.x = v ∧ ShowsZN v t ∧ ReadOnlyEnd i s t ∧ Frame i s t [.x] [.zero, .negative] [] := by
  obtain ⟨t, ht, ⟨-, hx, -⟩, hrest⟩ := registerResult_completes (v := v) (a := s.a) (x := v) (y := s.y) (regs := [.x])
    he heffect (fun _ => rfl) (absurd (by decide)) (fun _ => rfl)
  exact ⟨t, ht, hx, hrest⟩

theorem toY_completes {i : Instr} {effect : State → State} {s : State} {v : Byte} (he : exec i s = runPlain i effect s)
    (heffect : effect s.beginExecute = toY v s.beginExecute) :
    Completes i s fun t =>
      t.y = v ∧ ShowsZN v t ∧ ReadOnlyEnd i s t ∧ Frame i s t [.y] [.zero, .negative] [] := by
  obtain ⟨t, ht, ⟨-, -, hy⟩, hrest⟩ := registerResult_completes (v := v) (a := s.a) (x := s.x) (y := v) (regs := [.y])
    he heffect (fun _ => rfl) (fun _ => rfl) (absurd (by decide))
  exact ⟨t, ht, hy, hrest⟩

/-! #### LDA, LDX and LDY -/

/-- Settles O30: the byte written is the operand, which is read in the state that `beginExecute` leaves. -/
theorem loadsTransferTheOperand : Obligations.LoadsTransferTheOperand := by
  intro i s
  refine ⟨fun h => ?lda, fun h => ?ldx, fun h => ?ldy⟩
  case lda => exact toA_completes (exec_lda h s) (congrArg (toA · _) (operandByte_beginExecute i s))
  case ldx => exact toX_completes (exec_ldx h s) (congrArg (toX · _) (operandByte_beginExecute i s))
  case ldy => exact toY_completes (exec_ldy h s) (congrArg (toY · _) (operandByte_beginExecute i s))

/-! #### STA, STX and STY -/

/-- Settles O31: `store_completes` for each of the three registers. -/
theorem storesWriteTheRegister : Obligations.StoresWriteTheRegister := by
  intro i s hm
  refine ⟨fun h => ?sta, fun h => ?stx, fun h => ?sty⟩
  case sta => exact store_completes hm (by rw [h]; decide) (exec_sta h s) rfl
  case stx => exact store_completes hm (by rw [h]; decide) (exec_stx h s) rfl
  case sty => exact store_completes hm (by rw [h]; decide) (exec_sty h s) rfl

/-! #### TAX, TAY, TXA, TYA, TSX and TXS -/

/-- An instruction that only reads, and has no page-cross penalty, charges no extra cycle (R137). -/
theorem Completes.no_extraCycles {i : Instr} {s : State} {result zn frame : State → Prop}
    (h : Completes i s fun t => result t ∧ zn t ∧ ReadOnlyEnd i s t ∧ frame t) (hpenalty : pageCrossPenalty i s = 0) :
    Completes i s fun t => result t ∧ zn t ∧ ReadOnlyEnd i s t ∧ t.lastExtraCycles = 0 ∧ frame t := by
  obtain ⟨t, ht, hresult, hzn, ⟨hpc, hlast, hextra⟩, hframe⟩ := h
  exact ⟨t, ht, hresult, hzn, ⟨hpc, hlast, hextra⟩, hextra.trans hpenalty, hframe⟩

/-- Settles O32: the byte written is the source register's. -/
theorem transfersCopyAndFlag : Obligations.TransfersCopyAndFlag := by
  intro s
  refine ⟨?tax, ?tay, ?txa, ?tya, ?tsx⟩
  case tax => exact (toX_completes (exec_tax rfl s) rfl).no_extraCycles rfl
  case tay => exact (toY_completes (exec_tay rfl s) rfl).no_extraCycles rfl
  case txa => exact (toA_completes (exec_txa rfl s) rfl).no_extraCycles rfl
  case tya => exact (toA_completes (exec_tya rfl s) rfl).no_extraCycles rfl
  case tsx => exact (toX_completes (exec_tsx rfl s) rfl).no_extraCycles rfl

/-- Settles O33: the effect is `setSP` alone, which leaves `P` and every other register as it is. -/
theorem txsSetsNoFlag : Obligations.TxsSetsNoFlag := by
  intro s
  refine ⟨_, (exec_txs rfl s).trans (runPlain_eq ..), rfl, rfl, ⟨advance_pc .txs _, rfl, rfl⟩, rfl, ?frame⟩
  case frame =>
    exact { a_kept := fun _ => rfl, x_kept := fun _ => rfl, y_kept := fun _ => rfl, sp_kept := absurd (by decide),
            flag_kept := fun _ _ => rfl, mem_kept := fun _ _ => rfl, executed := rfl, obs_kept := rfl }

end Sys2Proof.Machine

/-! ### Branches, jumps and subroutines (R210 to R222) -/

namespace Sys2Proof.Machine

/-- What an effect that writes `PC`, `SP` and memory alone leaves unchanged, once the records are written. -/
theorem frame_record {i : Instr} {s u : State} {regs : List RegName} {slots : List Word} (n : Nat) (ha : u.a = s.a)
    (hx : u.x = s.x) (hy : u.y = s.y) (hp : u.p = s.p) (hobs : u.obs = s.obs) (hsp : RegName.sp ∉ regs → u.sp = s.sp)
    (hloads : LoadsKeptBut slots s u) : Frame i s (u.record i n) regs [] slots :=
  { a_kept := fun _ => ha, x_kept := fun _ => hx, y_kept := fun _ => hy, sp_kept := hsp,
    flag_kept := fun f _ => congrArg (flagOf f) hp, mem_kept := hloads, executed := rfl, obs_kept := hobs }

/-- A new `PC` and the records are all that a branch or a jump leaves behind (R210, R219). -/
theorem frame_setPC (i : Instr) (s : State) (pc : Word) (n : Nat) :
    Frame i s ((s.beginExecute.setPC pc).record i n) [] [] [] :=
  frame_record n rfl rfl rfl rfl rfl (fun _ => rfl) (.of_mem_eq rfl [])

/-! #### The eight branches -/

/-- The displacement is signed and counts from the instruction after the branch (R210). -/
theorem branchTarget_zeroExtend (d : Byte) (pc : Word) :
    branchTarget (zeroExtend d) pc = BitVec.ofInt 16 (pc.toNat + 2 + d.toInt) := by
  have hlength : (pc.toNat : Int) + 1 + (Format.mode .rel).operandBytes = pc.toNat + 2 := add_assoc _ _ _
  rw [branchTarget, nextPC, getRelative, lowByte_zeroExtend, signedByte_eq_toInt, hlength]

/-- The page test of a taken branch, by page numbers (R210). -/
theorem takenPenalty_eq_ite (w pc : Word) :
    takenPenalty w pc = if (branchTarget w pc).toNat / 0x100 = pc.toNat / 0x100 then 1 else 2 := by
  simp only [takenPenalty, pagesDiffer_iff, ne_eq, ite_not]
  exact if_congr eq_comm rfl rfl

/-- The rule that the eight branches share (R210), for the condition that the flag has the branch's polarity. -/
theorem branch_completes {i : Instr} {f : Flag} {value cond : Bool} {d : Byte} {s : State}
    (he : exec i s = runBranch i f value (zeroExtend d) s) (hcond : (s.flag f == value) = cond) :
    let target : Word := BitVec.ofInt 16 (s.pc.toNat + 2 + d.toInt)
    Completes i s fun t =>
      (cond = true → t.pc = target ∧
        t.lastExtraCycles = if target.toNat / 0x100 = s.pc.toNat / 0x100 then 1 else 2) ∧
      (cond = false → t.pc = s.pc + 2#16 ∧ t.lastExtraCycles = 0) ∧
      t.lastWrite = none ∧ t.p = s.p ∧ Frame i s t [] [] [] := by
  cases cond
  case true =>
    refine ⟨_, he.trans (runBranch_taken (beq_iff_eq.1 hcond) i _), fun _ => ?_, nofun, rfl, rfl, frame_setPC ..⟩
    rw [takenPenalty_eq_ite, branchTarget_zeroExtend]
    exact ⟨rfl, rfl⟩
  case false =>
    exact ⟨_, he.trans (runBranch_not_taken (beq_eq_false_iff_ne.1 hcond) i _), nofun, fun _ => ⟨rfl, rfl⟩, rfl, rfl,
      frame_setPC ..⟩

/-- Settles O34: `branch_completes` with the flag and the polarity of each branch. -/
theorem branchesFollowOneFlag : Obligations.BranchesFollowOneFlag := by
  intro d s target post
  refine ⟨?bcc, ?bcs, ?bne, ?beq, ?bpl, ?bmi, ?bvc, ?bvs⟩
  case bcc => exact branch_completes (exec_bcc rfl s) (beq_false _)
  case bcs => exact branch_completes (exec_bcs rfl s) (beq_true _)
  case bne => exact branch_completes (exec_bne rfl s) (beq_false _)
  case beq => exact branch_completes (exec_beq rfl s) (beq_true _)
  case bpl => exact branch_completes (exec_bpl rfl s) (beq_false _)
  case bmi => exact branch_completes (exec_bmi rfl s) (beq_true _)
  case bvc => exact branch_completes (exec_bvc rfl s) (beq_false _)
  case bvs => exact branch_completes (exec_bvs rfl s) (beq_true _)

/-! #### JMP -/

/-- The pointer's high byte is read from the operand's own page, from its start after the last byte (R120). -/
theorem eaIndirect_toNat (w : Word) (s : State) :
    (eaIndirect w s).toNat =
      (s.load (BitVec.ofNat 16 (w.toNat / 0x100 * 0x100 + (w.toNat + 1) % 0x100))).toNat * 0x100 +
        (s.load w).toNat := by
  have haddr : wordOf (highByte w) (lowByte w + 1#8) =
      BitVec.ofNat 16 (w.toNat / 0x100 * 0x100 + (w.toNat + 1) % 0x100) := by
    apply BitVec.eq_of_toNat_eq
    have := w.isLt
    rw [wordOf_toNat, highByte_toNat, add_one_toNat, lowByte_toNat, BitVec.toNat_ofNat]
    omega
  rw [eaIndirect, wordOf_toNat, haddr]

/-- The rule that both forms of JMP share (R219). -/
theorem jmp_completes {i : Instr} (h : i.mnemonic = .jmp) (s : State) :
    Completes i s fun t => t.pc = jumpTarget i s.beginExecute ∧ t.lastWrite = none ∧ t.lastExtraCycles = 0 ∧ t.p = s.p ∧
      Frame i s t [] [] [] :=
  ⟨_, (exec_jmp h s).trans (runJump_eq ..), rfl, rfl, rfl, rfl, frame_setPC ..⟩

/-- Settles O35: `jmp_completes` for both forms, the pointer's bytes by `eaIndirect_toNat`. -/
theorem jumpsSetPC : Obligations.JumpsSetPC := by
  intro w s post
  refine ⟨jmp_completes (i := .jmpAbs w) rfl s, ?indirect⟩
  case indirect =>
    obtain ⟨t, ht, hpc, hrest⟩ := jmp_completes (i := .jmpInd w) rfl s
    exact ⟨t, ht, (congrArg BitVec.toNat hpc).trans (eaIndirect_toNat w s), hrest⟩

/-! #### JSR and RTS -/

@[simp] theorem callSubroutine_pc (target : Word) (s : State) : (callSubroutine target s).pc = target := by
  simp [callSubroutine]
@[simp] theorem callSubroutine_sp (target : Word) (s : State) : (callSubroutine target s).sp = s.sp - 2#8 := by
  simp [callSubroutine]
@[simp] theorem callSubroutine_p (target : Word) (s : State) : (callSubroutine target s).p = s.p := by
  simp [callSubroutine]
@[simp] theorem callSubroutine_obs (target : Word) (s : State) : (callSubroutine target s).obs = s.obs := by
  simp [callSubroutine]
@[simp] theorem callSubroutine_lastWrite (target : Word) (s : State) :
    (callSubroutine target s).lastWrite = some (stackAddr s.sp, highByte (s.pc + 2#16)) := by
  simp [callSubroutine]

/-- JSR's two slots are different cells, so the store of the high byte leaves the low byte in place (R220). -/
theorem callSubroutine_load_low {s : State} (hm : Memory.wf s.mem) (target : Word) :
    (callSubroutine target s).load (stackAddr (s.sp - 1#8)) = lowByte (s.pc + 2#16) := by
  have hslots : cellOf (stackAddr (s.sp - 1#8)) ≠ cellOf (stackAddr s.sp) := fun h => by
    have hsame := cellOf_stackAddr_inj h
    bv_omega
  rw [callSubroutine, State.setPC_load, State.setSP_load, State.load_store_other hslots, State.load_store_same hm rfl]

theorem callSubroutine_load_high {s : State} (hm : Memory.wf s.mem) (target : Word) :
    (callSubroutine target s).load (stackAddr s.sp) = highByte (s.pc + 2#16) := by
  rw [callSubroutine, State.setPC_load, State.setSP_load, State.load_store_same (State.wf_store hm _ _) rfl]

/-- Settles O36: the fields after `callSubroutine`, whose two stores the loads above read back. -/
theorem jsrStoresReturnAddress : Obligations.JsrStoresReturnAddress := by
  intro w s hm
  refine ⟨_, (exec_jsr rfl s).trans (runJump_eq ..), ?pc, ?sp, ?low, ?high, ?lastWrite, rfl, ?p, ?frame⟩
  case pc => exact callSubroutine_pc w s.beginExecute
  case sp => exact callSubroutine_sp w s.beginExecute
  case low => exact callSubroutine_load_low (s := s.beginExecute) hm w
  case high => exact callSubroutine_load_high (s := s.beginExecute) hm w
  case lastWrite => exact callSubroutine_lastWrite w s.beginExecute
  case p => exact callSubroutine_p w s.beginExecute
  case frame =>
    exact frame_record 0 (callSubroutine_a ..) (callSubroutine_x ..) (callSubroutine_y ..) (callSubroutine_p ..)
      (callSubroutine_obs ..) (absurd (by decide)) (callSubroutine_loadsKept w s.beginExecute)

/-- Settles O37: the word above `SP` plus one. -/
theorem rtsResumesAfterPulledWord : Obligations.RtsResumesAfterPulledWord := by
  intro s
  refine ⟨_, (exec_rts rfl s).trans (runJump_eq ..), ?pc, rfl, rfl, rfl, rfl, ?frame⟩
  case pc =>
    rw [State.record_pc, returnFromSubroutine, State.setPC_pc, BitVec.toNat_add, wordOf_toNat]
    rfl
  case frame =>
    exact frame_record 0 rfl rfl rfl rfl rfl (absurd (by decide)) (.of_mem_eq rfl [])

/-- Settles O38: the two slots RTS pulls are those JSR filled, and its plus one makes up for JSR's minus one (R222). -/
theorem rtsReturnsFromJsr : Obligations.RtsReturnsFromJsr := by
  intro w s hm
  obtain ⟨t, ht, -, htsp, hlow, hhigh, -, -, htp, htframe⟩ := jsrStoresReturnAddress w s hm
  obtain ⟨u, hu, hpc, husp, -, -, hup, huframe⟩ := rtsResumesAfterPulledWord t
  have hslotLow : t.sp + 1#8 = s.sp - 1#8 := by rw [htsp]; bv_omega
  have hslotHigh : t.sp + 2#8 = s.sp := by rw [htsp]; bv_omega
  refine ⟨t, u, ht, hu, BitVec.eq_of_toNat_eq ?pc, husp.trans hslotHigh, ?a, ?x, ?y, hup.trans htp⟩
  case pc =>
    rw [hslotLow, hslotHigh, hlow, hhigh, ← wordOf_toNat, wordOf_high_low] at hpc
    rw [hpc, BitVec.toNat_add, BitVec.toNat_add]
    exact Nat.mod_add_mod _ _ _
  case a => exact (huframe.a_kept (by decide)).trans (htframe.a_kept (by decide))
  case x => exact (huframe.x_kept (by decide)).trans (htframe.x_kept (by decide))
  case y => exact (huframe.y_kept (by decide)).trans (htframe.y_kept (by decide))

end Sys2Proof.Machine

/-! ### Stack, flags, system (R231 to R245) -/

namespace Sys2Proof.Machine

/-! #### Frames with flags -/

theorem mem_allFlags (f : Flag) :
    f ∈ [Flag.carry, .zero, .interruptDisable, .decimalMode, .breakCommand, .unused, .overflow, .negative] := by
  cases f <;> decide

/-- `frame_record` for an effect that may also write `A` and flags. -/
theorem frame_record_flags {i : Instr} {s u : State} {regs : List RegName} {flags : List Flag} {slots : List Word} (n : Nat)
    (ha : RegName.a ∉ regs → u.a = s.a) (hx : u.x = s.x) (hy : u.y = s.y) (hsp : RegName.sp ∉ regs → u.sp = s.sp)
    (hflags : ∀ f, f ∉ flags → u.flag f = s.flag f) (hobs : u.obs = s.obs) (hloads : LoadsKeptBut slots s u) :
    Frame i s (u.record i n) regs flags slots :=
  { a_kept := ha, x_kept := fun _ => hx, y_kept := fun _ => hy, sp_kept := hsp, flag_kept := hflags, mem_kept := hloads,
    executed := rfl, obs_kept := hobs }

/-! #### PHA and PHP -/

/-- The rule that PHA and PHP share (R230 to R232), for the byte pushed. -/
theorem push_completes {i : Instr} {value : State → Byte} {s : State} (hm : Memory.wf s.mem)
    (he : exec i s = runPlain i (fun t => t.push (value t)) s) (hvalue : value s.beginExecute = value s)
    (hpenalty : pageCrossPenalty i s = 0) :
    Completes i s fun t =>
      t.load (stackAddr s.sp) = value s ∧ t.sp = s.sp - 1#8 ∧ t.lastWrite = some (stackAddr s.sp, value s) ∧ t.p = s.p ∧
        Advances i s t ∧ t.lastExtraCycles = 0 ∧ Frame i s t [.sp] [] [stackAddr s.sp] := by
  refine ⟨_, he.trans (runPlain_eq ..), ?_⟩
  rw [hvalue]
  exact ⟨State.load_store_same (s := s.beginExecute) hm rfl _, rfl, rfl, rfl, advance_pc i _, hpenalty,
    frame_record _ rfl rfl rfl rfl rfl (absurd (by decide)) (push_loadsKept (value s) s.beginExecute)⟩

/-- Settles O40: `push_completes` for `A` and for `P` as it stands. -/
theorem pushesStoreAtSP : Obligations.PushesStoreAtSP := by
  intro s hm post
  refine ⟨?pha, ?php⟩
  case pha => exact push_completes hm (exec_pha rfl s) rfl rfl
  case php => exact push_completes hm (exec_php rfl s) rfl rfl

/-! #### PLA and PLP -/

/-- Settles O41: both take the byte above `SP`; PLA's flags are those of `SetZN`, PLP's are all from the byte. -/
theorem pullsReadAboveSP : Obligations.PullsReadAboveSP := by
  intro s v
  refine ⟨?pla, ?plp⟩
  case pla =>
    exact ⟨_, (exec_pla rfl s).trans (runPlain_eq ..), rfl, rfl, showsZN_of_withZN (p := s.p) rfl,
      ⟨advance_pc .pla _, rfl, rfl⟩, rfl,
      frame_record_flags _ (absurd (by decide)) rfl rfl (absurd (by decide)) (fun _ hf => flagOf_withZN_other hf v s.p)
        rfl (.of_mem_eq rfl [])⟩
  case plp =>
    exact ⟨_, (exec_plp rfl s).trans (runPlain_eq ..), rfl, rfl, ⟨advance_pc .plp _, rfl, rfl⟩, rfl,
      frame_record_flags _ (fun _ => rfl) rfl rfl (absurd (by decide)) (fun f hf => absurd (mem_allFlags f) hf)
        rfl (.of_mem_eq rfl [])⟩

/-! #### CLC, SEC, CLI, SEI, CLD, SED and CLV -/

theorem withFlag_false (f : Flag) (p : Byte) : withFlag f false p = p &&& ~~~ flagMask f :=
  BitVec.or_zero

/-- Setting a flag is the disjunction with its mask: clearing the bit first makes no difference (R91). -/
theorem withFlag_true (f : Flag) (p : Byte) : withFlag f true p = p ||| flagMask f := by
  ext k hk
  rw [withFlag, if_pos rfl, BitVec.getElem_or, BitVec.getElem_or, BitVec.getElem_and, BitVec.getElem_not]
  cases (flagMask f)[k] <;> simp

/-- The rule that the seven flag instructions share (R235 to R241), for the value of `P` after the write. -/
theorem setFlag_completes {i : Instr} {f : Flag} {b : Bool} {s : State} {p : Byte}
    (he : exec i s = runPlain i (State.setFlag f b) s) (hp : withFlag f b s.p = p) (hpenalty : pageCrossPenalty i s = 0) :
    Completes i s fun t => t.p = p ∧ ReadOnlyEnd i s t ∧ t.lastExtraCycles = 0 ∧ Frame i s t [] [f] [] := by
  have hothers : ∀ g, g ∉ [f] → (s.setFlag f b).flag g = s.flag g := fun g hg => by
    rw [State.setFlag_flag, if_neg (mt List.mem_singleton.2 hg)]
  exact ⟨_, he.trans (runPlain_eq ..), hp, ⟨advance_pc i _, rfl, rfl⟩, hpenalty,
    frame_record_flags _ (fun _ => rfl) rfl rfl (fun _ => rfl) hothers rfl (.of_mem_eq rfl [])⟩

/-- Settles O42: `setFlag_completes`, with the masks of the four flags. -/
theorem flagInstructionsWriteOneBit : Obligations.FlagInstructionsWriteOneBit := by
  intro s post
  refine ⟨?clc, ?sec, ?cli, ?sei, ?cld, ?sed, ?clv⟩
  case clc => exact setFlag_completes (exec_clc rfl s) (withFlag_false ..) rfl
  case sec => exact setFlag_completes (exec_sec rfl s) (withFlag_true ..) rfl
  case cli => exact setFlag_completes (exec_cli rfl s) (withFlag_false ..) rfl
  case sei => exact setFlag_completes (exec_sei rfl s) (withFlag_true ..) rfl
  case cld => exact setFlag_completes (exec_cld rfl s) (withFlag_false ..) rfl
  case sed => exact setFlag_completes (exec_sed rfl s) (withFlag_true ..) rfl
  case clv => exact setFlag_completes (exec_clv rfl s) (withFlag_false ..) rfl

/-! #### NOP -/

/-- Settles O43: the advance is by one byte, and `record` writes the rest. -/
theorem nopOnlyAdvances : Obligations.NopOnlyAdvances := by
  intro s
  rw [exec_nop rfl, runPlain_eq, advance, nextPC_zero]
  rfl

/-! #### BRK and RTI -/

@[simp] theorem State.trapEntry_sp (s : State) : s.trapEntry.sp = s.sp - 2#8 := by
  simp [State.trapEntry]
@[simp] theorem State.trapEntry_p (s : State) : s.trapEntry.p = s.p ||| 0x10#8 :=
  withFlag_true .breakCommand s.p
@[simp] theorem State.trapEntry_obs (s : State) : s.trapEntry.obs = s.obs := by
  simp [State.trapEntry]
@[simp] theorem State.trapEntry_lastWrite (s : State) :
    s.trapEntry.lastWrite = some (stackAddr (s.sp - 2#8), s.trapEntry.p) := by
  simp [State.trapEntry]

/-- The vector lies outside the stack page, so the three stores do not change it (R243). -/
theorem State.trapEntry_pc (s : State) : s.trapEntry.pc = s.loadWord Config.breakVector := by
  have hkept : ∀ {addr : Word}, 0x4000 ≤ addr.toNat → s.trapEntry.load addr = s.load addr := fun haddr =>
    trapEntry_loadsKept s _ (by simp [cellOf_ne_stackAddr haddr])
  calc s.trapEntry.pc
    _ = s.trapEntry.loadWord Config.breakVector := rfl
    _ = s.loadWord Config.breakVector := congrArg₂ wordOf (hkept (by decide)) (hkept (by decide))

theorem cellOf_stackAddr_ne {a b : Byte} (h : a ≠ b) : cellOf (stackAddr a) ≠ cellOf (stackAddr b) :=
  mt cellOf_stackAddr_inj h

/-- BRK's three slots are different cells, so each store leaves the ones before it in place (R243). -/
theorem State.trapEntry_load_low {s : State} (hm : Memory.wf s.mem) :
    s.trapEntry.load (stackAddr s.sp) = lowByte (s.pc + 2#16) := by
  rw [State.trapEntry, State.setPC_load, State.setSP_load, State.load_store_other (cellOf_stackAddr_ne (by bv_omega)),
    State.load_store_other (cellOf_stackAddr_ne (by bv_omega)),
    State.load_store_same (s := s.setFlag .breakCommand true) hm rfl]

theorem State.trapEntry_load_high {s : State} (hm : Memory.wf s.mem) :
    s.trapEntry.load (stackAddr (s.sp - 1#8)) = highByte (s.pc + 2#16) := by
  rw [State.trapEntry, State.setPC_load, State.setSP_load, State.load_store_other (cellOf_stackAddr_ne (by bv_omega)),
    State.load_store_same (State.wf_store (s := s.setFlag .breakCommand true) hm _ _) rfl]

/-- The last store is the one `lastWrite` records, and it is still in memory. -/
theorem State.trapEntry_load_p {s : State} (hm : Memory.wf s.mem) :
    s.trapEntry.load (stackAddr (s.sp - 2#8)) = s.trapEntry.p := by
  obtain ⟨-, hvisible⟩ := storeCoherent_trapEntry hm
  exact hvisible _ _ s.trapEntry_lastWrite

/-- Settles O44: the fields after `trapEntry`, whose three stores the loads above read back. -/
theorem brkEntersTheTrap : Obligations.BrkEntersTheTrap := by
  intro s hm
  have hm' : Memory.wf s.beginExecute.mem := hm
  refine ⟨_, (exec_brk rfl s).trans (runJump_eq ..), ?p, ?sp, ?pc, ?low, ?high, ?pushedP, ?lastWrite, rfl, ?frame⟩
  case p => exact s.beginExecute.trapEntry_p
  case sp => exact s.beginExecute.trapEntry_sp
  case pc => exact s.beginExecute.trapEntry_pc
  case low => exact State.trapEntry_load_low hm'
  case high => exact State.trapEntry_load_high hm'
  case pushedP => exact State.trapEntry_load_p hm'
  case lastWrite => exact s.beginExecute.trapEntry_lastWrite
  case frame =>
    refine frame_record_flags 0 (fun _ => State.trapEntry_a _) (State.trapEntry_x _) (State.trapEntry_y _)
      (absurd (by decide)) (fun f hf => ?_) (State.trapEntry_obs _) (trapEntry_loadsKept s.beginExecute)
    rw [State.trapEntry_flag, if_neg (mt List.mem_singleton.2 hf), State.beginExecute_flag]

/-- Settles O45: the fields after `trapReturn`, whose `PC` is the word pulled. -/
theorem rtiRestoresPAndPC : Obligations.RtiRestoresPAndPC := by
  intro s
  refine ⟨_, (exec_rti rfl s).trans (runJump_eq ..), rfl, ?pc, rfl, rfl, rfl, ?frame⟩
  case pc => exact wordOf_toNat _ _
  case frame =>
    exact frame_record_flags 0 (fun _ => rfl) rfl rfl (absurd (by decide)) (fun f hf => absurd (mem_allFlags f) hf) rfl
      (.of_mem_eq rfl [])

/-- Settles O46: BRK lowers `SP` to `SP - 2`, so RTI starts at the high byte stored at `SP - 1` and ends at a byte above the
old `SP`, which BRK's frame keeps (R245). -/
theorem rtiDoesNotUndoBrk : Obligations.RtiDoesNotUndoBrk := by
  intro s hm
  obtain ⟨t, ht, -, htsp, -, hlow, hhigh, -, -, -, htframe⟩ := brkEntersTheTrap s hm
  obtain ⟨u, hu, hup, hpc, husp, -⟩ := rtiRestoresPAndPC t
  have hslotP : t.sp + 1#8 = s.sp - 1#8 := by rw [htsp]; bv_omega
  have hslotLow : t.sp + 2#8 = s.sp := by rw [htsp]; bv_omega
  have hslotHigh : t.sp + 3#8 = s.sp + 1#8 := by rw [htsp]; bv_omega
  have habove : t.load (stackAddr (s.sp + 1#8)) = s.load (stackAddr (s.sp + 1#8)) := by
    refine htframe.mem_kept _ (List.forall_mem_cons.2 ⟨?_, List.forall_mem_cons.2 ⟨?_, List.forall_mem_singleton.2 ?_⟩⟩)
    all_goals exact cellOf_stackAddr_ne (by bv_omega)
  have hword : u.pc = wordOf (s.load (stackAddr (s.sp + 1#8))) (lowByte (s.pc + 2#16)) := by
    apply BitVec.eq_of_toNat_eq
    rw [hpc, hslotHigh, hslotLow, habove, hlow, wordOf_toNat]
  refine ⟨t, u, ht, hu, ?pulledP, ?pcLow, ?pcHigh, husp.trans hslotHigh⟩
  case pulledP => rw [hup, hslotP, hhigh]
  case pcLow => rw [hword, lowByte_wordOf]
  case pcHigh => rw [hword, highByte_wordOf]

end Sys2Proof.Machine

namespace Sys2Proof.Machine

/-! ### What a step can do, and that it reads nothing of the observer (R131, R250, R274) -/

/-- A step runs the instruction at `PC`, or faults with the byte there, which is then outside the opcode map. -/
theorem step_cases (s : State) : (∃ t, step s = .next t) ∨
    (step s = .fault (.unknownInstruction (s.load s.pc)) ∧ mapped (s.load s.pc) = false) := by
  cases h : mapped (s.load s.pc) with
  | true => exact .inl (step_of_mapped h)
  | false => exact .inr ⟨step_of_unmapped h, rfl⟩

/-- Settles O4: the byte at `PC` is in the opcode map or outside it. -/
theorem stepStopsOnlyOnUnknownOpcode : Obligations.StepStopsOnlyOnUnknownOpcode :=
  step_cases

/-- A step's whole effect on the observer is the note that an instruction has retired (R23; log 4). -/
theorem step_obs {s t : State} (h : step s = .next t) : t.obs = { s.obs with resetPending := false } := by
  obtain ⟨i, u, -, hu, rfl⟩ := exec_of_step_next h
  obtain ⟨v, hv, -, hobs⟩ := exec_next i s
  cases hu.symm.trans hv
  rw [State.noteRetired_obs, hobs]

namespace SameCore

variable {s t : State}

theorem refl (s : State) : SameCore s s := rfl

theorem load (h : SameCore s t) (addr : Word) : s.load addr = t.load addr := by
  rw [← h]
  rfl

theorem pc (h : SameCore s t) : s.pc = t.pc := by
  rw [← h]

theorem fetch (h : SameCore s t) : s.fetch = t.fetch := by
  rw [← h]
  rfl

/-- The pause event shows nothing of the observer (R273). -/
theorem pauseEvent (h : SameCore s t) : pauseEvent s = pauseEvent t := by
  rw [← h]
  rfl

/-- The drive loop's own bookkeeping after an instruction leaves the core alone (R268). -/
theorem countRetired (h : SameCore s t) : SameCore s t.countRetired :=
  congrArg State.countRetired h

theorem noteRetired (h : SameCore s t) : SameCore s t.noteRetired :=
  congrArg State.noteRetired h

theorem setRun (h : SameCore s t) (r : RunState) : SameCore s (t.setRun r) :=
  congrArg (State.setRun r) h

/-- States with the same core step to states with the same core. -/
theorem step_next (h : SameCore s t) {t' : State} (ht : step t = .next t') : ∃ s', step s = .next s' ∧ SameCore s' t' := by
  obtain ⟨i, u, hi, hu, rfl⟩ := exec_of_step_next ht
  have ht : t = { s with obs := t.obs } := h.symm
  have hs : exec i s = .next { u with obs := s.obs } := by
    have := exec_obs i s.obs hu
    rwa [ht] at this
  refine ⟨State.noteRetired { u with obs := s.obs }, ?_, rfl⟩
  simp only [step, h.fetch.trans hi, hs, afterExecute]

/-- States with the same core fault alike: the fault is fixed by the byte at `PC`. -/
theorem step_fault (h : SameCore s t) {r : Fault} (ht : step t = .fault r) : step s = .fault r := by
  rcases step_cases t with ⟨t', hn⟩ | ⟨hf, hunmapped⟩
  · cases ht.symm.trans hn
  · rw [← h.pc, ← h.load] at hf hunmapped
    rw [step_of_unmapped hunmapped, ← ht, hf]

end SameCore

/-! ### One iteration of the drive loop (R268, R277) -/

theorem driveIteration_of_resetBreak {s : State} (h : resetBreak s = true) : driveIteration s = pause s.noteRetired :=
  if_pos h

theorem driveIteration_of_fault {s : State} (h : resetBreak s = false) {r : Fault} (hr : step s = .fault r) :
    driveIteration s = .faulted r (s.setRun .paused) := by
  simp [driveIteration, h, hr]

theorem driveIteration_of_next {s t : State} (h : resetBreak s = false) (ht : step s = .next t) :
    driveIteration s = if anyFires t.countRetired then pause t.countRetired else .running t.countRetired := by
  simp [driveIteration, h, ht]

/-- Everything an iteration can do: break at the reset test, fault, or count a retired instruction and then pause or go on. -/
theorem driveIteration_cases (s : State) :
    driveIteration s = pause s.noteRetired ∨
    (∃ r, step s = .fault r ∧ driveIteration s = .faulted r (s.setRun .paused)) ∨
    ∃ t, step s = .next t ∧
      (driveIteration s = pause t.countRetired ∨ driveIteration s = .running t.countRetired) := by
  cases hb : resetBreak s with
  | true => exact .inl (driveIteration_of_resetBreak hb)
  | false =>
    rcases step_cases s with ⟨t, ht⟩ | ⟨hr, -⟩
    · rw [driveIteration_of_next hb ht]
      exact .inr (.inr ⟨t, ht, ite_eq_or_eq _ _ _⟩)
    · exact .inr (.inl ⟨_, hr, driveIteration_of_fault hb hr⟩)

theorem driveLoop_succ_of_running {s t : State} (h : driveIteration s = .running t) (n : Nat) :
    driveLoop (n + 1) s = driveLoop n t := by
  simp [driveLoop, h]

theorem driveLoop_succ_of_faulted {s t : State} {r : Fault} (h : driveIteration s = .faulted r t) (n : Nat) :
    driveLoop (n + 1) s = .faulted r t := by
  simp [driveLoop, h]

theorem driveLoop_succ_of_pause {s t : State} (h : driveIteration s = pause t) (n : Nat) :
    driveLoop (n + 1) s = pause t := by
  simp [driveLoop, h, pause]

/-- The loop's count after an instruction (R268). -/
theorem countRetired_obs_of_step {s t : State} (h : step s = .next t) :
    t.countRetired.obs = { s.obs with retired := s.obs.retired + 1, resetPending := false } := by
  rw [State.countRetired_obs, step_obs h]

theorem anyFires_iff (s : State) : anyFires s = true ↔ ∃ bp ∈ s.obs.breakpoints, fires bp s = true :=
  List.any_eq_true

/-- Settles O55: after the reset test an iteration is decided by the step and then by `anyFires`. -/
theorem driveIterationPausesOnFiring : Obligations.DriveIterationPausesOnFiring := by
  intro s hb
  refine ⟨fun r hr => driveIteration_of_fault hb hr, fun t ht => ?_⟩
  intro u
  have hu : t.countRetired = u := congrArg (fun o => { t with obs := o }) (countRetired_obs_of_step ht)
  have hdrive := driveIteration_of_next hb ht
  rw [hu] at hdrive
  constructor
  · intro hfires
    rw [hdrive, if_pos ((anyFires_iff u).2 hfires)]
    rfl
  · intro hquiet
    rw [hdrive, if_neg]
    intro hany
    obtain ⟨bp, hbp, hfire⟩ := (anyFires_iff u).1 hany
    exact absurd hfire (by simp [hquiet bp hbp])

/-! ### The drive loop simulates calls of `Step` (R268, R274, R278) -/

theorem stepN_succ {s t : State} (h : step s = .next t) (n : Nat) : stepN (n + 1) s = stepN n t := by
  simp only [stepN, h]

/-- `k` calls of `Step` from `s₀` lead to `u`, which has the core of the loop's state `t`, and the loop has counted them from
the `m` it began with. -/
def SteppedTo (s₀ : State) (m k : Nat) (t u : State) : Prop :=
  stepN k s₀ = .next u ∧ SameCore u t ∧ t.obs.retired = m + k

theorem steppedTo_zero {s₀ t : State} (h : SameCore s₀ t) : SteppedTo s₀ t.obs.retired 0 t s₀ :=
  ⟨rfl, h, rfl⟩

theorem SteppedTo.succ {s₀ s₁ t u : State} {m k : Nat} (hstep : step s₀ = .next s₁) (h : SteppedTo s₁ (m + 1) k t u) :
    SteppedTo s₀ m (k + 1) t u := by
  obtain ⟨hrun, hcore, hcount⟩ := h
  exact ⟨(stepN_succ hstep k).trans hrun, hcore, by omega⟩

/-- What `n` iterations of the drive loop may answer, in terms of calls of `Step` from `s₀`. -/
def AnswersAsStepping (n : Nat) (s₀ : State) (m : Nat) : RunResult → Prop
  | .running t => ∃ u, SteppedTo s₀ m n t u
  | .paused e t => ∃ k ≤ n, ∃ u, SteppedTo s₀ m k t u ∧ e = pauseEvent u
  | .faulted r t => ∃ k < n, ∃ u, SteppedTo s₀ m k t u ∧ step u = .fault r
  | .refused _ _ => False

theorem AnswersAsStepping.succ {n m : Nat} {s₀ s₁ : State} (hstep : step s₀ = .next s₁) {r : RunResult}
    (h : AnswersAsStepping n s₁ (m + 1) r) : AnswersAsStepping (n + 1) s₀ m r := by
  cases r with
  | running t =>
    obtain ⟨u, hu⟩ := h
    exact ⟨u, hu.succ hstep⟩
  | paused e t =>
    obtain ⟨k, hk, u, hu, he⟩ := h
    exact ⟨k + 1, Nat.succ_le_succ hk, u, hu.succ hstep, he⟩
  | faulted r t =>
    obtain ⟨k, hk, u, hu, hr⟩ := h
    exact ⟨k + 1, Nat.succ_lt_succ hk, u, hu.succ hstep, hr⟩
  | refused r t => exact h

/-- A pause in the very state the steps have reached. -/
theorem answersAsStepping_pause {s₀ t : State} (h : SameCore s₀ t) (n : Nat) :
    AnswersAsStepping n s₀ t.obs.retired (pause t) :=
  ⟨0, Nat.zero_le n, s₀, steppedTo_zero (h.setRun .paused), h.pauseEvent.symm⟩

/-- The simulation: from two states with the same core, the loop and the calls of `Step` stay together. -/
theorem driveLoop_answersAsStepping (n : Nat) {s₀ s : State} (h : SameCore s₀ s) :
    AnswersAsStepping n s₀ s.obs.retired (driveLoop n s) := by
  induction n generalizing s₀ s with
  | zero => exact ⟨s₀, steppedTo_zero h⟩
  | succ n ih =>
    rcases driveIteration_cases s with hpause | ⟨r, hr, hfault⟩ | ⟨t, ht, hit⟩
    · rw [driveLoop_succ_of_pause hpause]
      exact answersAsStepping_pause h.noteRetired (n + 1)
    · rw [driveLoop_succ_of_faulted hfault]
      exact ⟨0, Nat.succ_pos n, s₀, steppedTo_zero (h.setRun .paused), h.step_fault hr⟩
    · obtain ⟨t₀, ht₀, hcore⟩ := h.step_next ht
      have hcount : t.countRetired.obs.retired = s.obs.retired + 1 := by rw [countRetired_obs_of_step ht]
      refine AnswersAsStepping.succ ht₀ (hcount ▸ ?_)
      rcases hit with hpause | hrun
      · rw [driveLoop_succ_of_pause hpause]
        exact answersAsStepping_pause hcore.countRetired n
      · rw [driveLoop_succ_of_running hrun]
        exact ih hcore.countRetired

/-- Settles O54: the simulation begun with the loop's own state. -/
theorem driveLoopIsStepping : Obligations.DriveLoopIsStepping :=
  fun n s => driveLoop_answersAsStepping n (SameCore.refl s)

/-! ### Breakpoints (R267 to R272, R275, R276) -/

/-- Settles O56: the reset test breaks before the first instruction, and the cleared mark lets the next `run()` pass it. -/
theorem resetVectorBreakpointFiresFirst : Obligations.ResetVectorBreakpointFiresFirst := by
  intro s n hidle hpending hmem
  have hbreak : resetBreak s.startRun = true := by simp [resetBreak, hpending, hmem]
  refine ⟨s.startRun.noteRetired.setRun .paused, ?_, rfl, rfl, rfl, rfl, rfl, rfl⟩
  calc run (n + 1) s
    _ = driveLoop (n + 1) s.startRun := if_neg (by simp [hidle])
    _ = pause s.startRun.noteRetired := driveLoop_succ_of_pause (driveIteration_of_resetBreak hbreak) n

theorem holds_equalTo_iff (w v : Byte) : holds (.equalTo w) v = true ↔ v = w :=
  beq_iff_eq

theorem holds_range_iff (lo hi v : Byte) : holds (.range lo hi) v = true ↔ lo.toNat ≤ v.toNat ∧ v.toNat ≤ hi.toNat := by
  simp [holds]

/-- A write breakpoint fires when the last store was to its very address with a byte that passes the test (R270). -/
theorem fires_write_iff (addr : Word) (pred : Predicate) (s : State) :
    fires (.memory addr .write pred) s = true ↔ ∃ v, s.lastWrite = some (addr, v) ∧ holds pred v = true := by
  unfold fires writeMatches
  cases s.lastWrite with
  | none => simp
  | some store => simp [Prod.ext_iff, and_assoc]

/-- Settles O57: the write breakpoint by its two value tests, the others by their definition. -/
theorem breakpointsFireAsStated : Obligations.BreakpointsFireAsStated := by
  intro s pc addr v lo hi pred n
  refine ⟨beq_iff_eq, ?_, ?_, rfl, beq_iff_eq, rfl⟩
  · simp only [fires_write_iff, holds_equalTo_iff, exists_eq_right]
  · simp only [fires_write_iff, holds_range_iff]

/-- While the drive loop runs, no operation that changes the state is performed (log 7). -/
theorem applyHostOp_of_driving {s : State} (h : driving s = true) (op : HostOp) :
    applyHostOp op s = .refused .driveLoopRunning :=
  if_pos h

theorem applyHostOp_of_idle {s : State} (h : driving s = false) (op : HostOp) : applyHostOp op s = performHostOp op s :=
  if_neg (by simp [h])

theorem performHostOp_addMemoryBreakpoint {r : MemoryRequest} (h : r.wellFormed = true) (s : State) :
    performHostOp (.addMemoryBreakpoint r) s = .next (s.register (memoryBreakpoint r)) :=
  if_pos h

theorem performHostOp_breakOn {b : BreakOnRequest} (h : b.wellFormed = true) (s : State) :
    performHostOp (.breakOn b) s = .next (s.register (breakOnBreakpoint b)) :=
  if_pos h

theorem oneAccess_of_onWrite {r : MemoryRequest} (h : r.onWrite = !r.onRead) : r.oneAccess = true := by
  simp [MemoryRequest.oneAccess, h]

/-- Settles O58: each request of a well-formed shape is registered as its own breakpoint, and the tests refuse the others. -/
theorem registrationAppendsOrRefuses : Obligations.RegistrationAppendsOrRefuses := by
  intro s r b addr appends access
  constructor
  case left =>
    intro h
    exact ⟨applyHostOp_of_driving h _, applyHostOp_of_driving h _, applyHostOp_of_driving h _,
      fun _ => applyHostOp_of_driving h _⟩
  case right =>
    intro h
    simp only [appends, applyHostOp_of_idle h]
    refine ⟨rfl, fun hr => if_neg (by simp [hr]), fun hb => if_neg (by simp [hb]), ?equality, ?range, ?count, ?reset⟩
    case equality =>
      intro v heq hge hle hacc
      have hpred : r.onePredicate = true := by simp only [MemoryRequest.onePredicate, heq, hge, hle]
      rw [performHostOp_addMemoryBreakpoint (by simp [MemoryRequest.wellFormed, oneAccess_of_onWrite hacc, hpred]),
        memoryBreakpoint, requestPredicate, heq]
      rfl
    case range =>
      intro lo hi heq hge hle hacc
      have hpred : r.onePredicate = true := by simp only [MemoryRequest.onePredicate, heq, hge, hle]
      rw [performHostOp_addMemoryBreakpoint (by simp [MemoryRequest.wellFormed, oneAccess_of_onWrite hacc, hpred]),
        memoryBreakpoint, requestPredicate, heq, hge, hle]
      rfl
    case count =>
      rintro n rfl
      exact performHostOp_breakOn rfl s
    case reset =>
      rintro rfl
      exact performHostOp_breakOn rfl s

/-! ### Power-up and reset (R26, R290, R291) -/

/-- A word read depends on its two bytes alone (R44). -/
theorem loadWord_eq_of_loads {s t : State} {addr : Word} (hlow : t.load addr = s.load addr)
    (hhigh : t.load (addr + 1#16) = s.load (addr + 1#16)) : t.loadWord addr = s.loadWord addr := by
  rw [State.loadWord, State.loadWord, hlow, hhigh]

/-- The reset vector is not among the cells `PowerUp` clears, so `PC` is the word that stood there (R290). -/
theorem powerUp_pc_eq {s : State} (h : Memory.wf s.mem) : s.powerUp.pc = s.loadWord Config.resetVector := by
  have hkept : ∀ addr ∉ clearedAtPowerUp, (storeZeros clearedAtPowerUp (powerUpRegisters s)).load addr = s.load addr :=
    fun addr ha => (State.load_congr (powerUp_mem s) addr).symm.trans (powerUp_load_kept h ha)
  rw [powerUp_pc]
  exact loadWord_eq_of_loads (hkept _ (by decide)) (hkept _ (by decide))

/-- Settles O13: the laws of `PowerUp`, one for each field, and those of the cells it clears and keeps. -/
theorem powerUpFixesTheState : Obligations.PowerUpFixesTheState := by
  intro s hm t
  exact ⟨powerUp_p s, powerUp_a s, powerUp_x s, powerUp_y s, powerUp_sp s, powerUp_pc_eq hm,
    fun addr h => powerUp_load_cleared hm (mem_clearedAtPowerUp.2 h),
    fun addr h => powerUp_load_kept hm (mt mem_clearedAtPowerUp.1 h),
    powerUp_lastExecuted s, powerUp_lastExtraCycles s, powerUp_lastWrite s, powerUp_obs s⟩

/-- The one cell `Reset` clears (R291). -/
theorem warmReset_load_cleared {s : State} (h : Memory.wf s.mem) : s.warmReset.load 0x4015#16 = 0#8 :=
  State.load_store_same (s := (s.setSP (s.sp - 3#8)).setFlag .interruptDisable true) h rfl 0#8

/-- 0x4015 has no mirror, so `Reset` keeps every other byte (R291). -/
theorem warmReset_load_kept {addr : Word} (h : addr ≠ 0x4015#16) (s : State) : s.warmReset.load addr = s.load addr :=
  State.load_store_other (mt (cellOf_eq_own_iff (by decide)).1 h) 0#8
    ((s.setSP (s.sp - 3#8)).setFlag .interruptDisable true)

theorem warmReset_pc (s : State) : s.warmReset.pc = s.loadWord Config.resetVector :=
  loadWord_eq_of_loads (t := s.warmReset) (warmReset_load_kept (by decide) s) (warmReset_load_kept (by decide) s)

theorem warmReset_sp_toNat (s : State) : s.warmReset.sp.toNat = (s.sp.toNat + 0x100 - 3) % 0x100 := by
  have hsp : s.warmReset.sp = s.sp - 3#8 := rfl
  rw [hsp]
  bv_omega

/-- Settles O14: the registers by name, memory by the one cell that `Reset` clears. -/
theorem resetKeepsRegisters : Obligations.ResetKeepsRegisters := by
  intro s hm t
  exact ⟨rfl, rfl, rfl, warmReset_sp_toNat s, withFlag_true .interruptDisable s.p, warmReset_pc s,
    warmReset_load_cleared hm, fun _ h => warmReset_load_kept h s, rfl, rfl, rfl, rfl⟩

/-- Clearing cells of a memory that lists nothing lists nothing: an unlisted cell reads as zero already (log 1). -/
theorem storeZeros_mem_nil (addrs : List Word) {s : State} (h : s.mem = []) : (storeZeros addrs s).mem = [] := by
  induction addrs generalizing s with
  | nil => exact h
  | cons addr addrs ih => exact ih (by rw [State.store_mem, h]; rfl)

/-- Settles O15: field by field; the blank memory stays blank, and the word at its reset vector is 0x0000 (log 1, log 2). -/
theorem resetStateIsPowerUp : Obligations.ResetStateIsPowerUp := by
  intro s hmem hrun hstarted hbreakpoints hretired
  have hblank : (storeZeros clearedAtPowerUp (powerUpRegisters s)).mem = [] := storeZeros_mem_nil _ hmem
  have hpc : (storeZeros clearedAtPowerUp (powerUpRegisters s)).loadWord Config.resetVector = 0x0000#16 := by
    rw [State.loadWord, State.load_eq, State.load_eq, hblank]
    rfl
  have hobs : { s.obs with resetPending := true } = Observer.afterPowerUp := by
    simp only [hrun, hstarted, hbreakpoints, hretired, Observer.afterPowerUp]
  rw [powerUp_eq, hpc, hblank, storeZeros_lastWrite, hobs]
  rfl

/-! ### Host operations and the invariant (R295) -/

/-- A store of the host, or the last store of a host operation, re-establishes what the invariant says of `lastWrite`. -/
theorem Inv.store {s : State} (h : Inv s) (addr : Word) (v : Byte) : Inv (s.store addr v) := by
  obtain ⟨hm, hextra, hexecuted, -⟩ := h
  obtain ⟨hm', hvisible⟩ := storeCoherent_store hm addr v
  exact ⟨hm', hextra, hexecuted, hvisible⟩

theorem Inv.warmReset {s : State} (h : Inv s) : Inv s.warmReset := by
  have hregisters : Inv ((s.setSP (s.sp - 3#8)).setFlag .interruptDisable true) := h
  exact hregisters.store 0x4015#16 0x00#8

/-- The invariant says nothing of the registers. -/
theorem Inv.setRegister {s : State} (h : Inv s) (r : RegName) (v : Nat) : Inv (setRegister r v s) := by
  cases r <;> exact h

/-- What a host `Execute` that completes has run: an instruction, and then the observer's note. -/
theorem exec_of_executeTuple_next {op : Byte} {operand : Option Nat} {s t : State}
    (h : executeTuple op operand s = .next t) : ∃ i u, exec i s = .next u ∧ t = u.noteRetired := by
  unfold executeTuple at h
  split at h
  next => cases h
  next i _ =>
    split at h
    next =>
      obtain ⟨u, hu, -⟩ := exec_next i s
      rw [hu] at h
      cases h
      exact ⟨i, u, hu, rfl⟩
    next => cases h

theorem Inv.executeTuple {s t : State} (hs : Inv s) {op : Byte} {operand : Option Nat}
    (h : executeTuple op operand s = .next t) : Inv t := by
  obtain ⟨i, u, hu, rfl⟩ := exec_of_executeTuple_next h
  have hinv : Inv u := (exec_establishes_inv hs.1 i).elim hu
  exact hinv

/-- A `Set` by mode writes `A` or stores at the effective address (R110). -/
theorem Inv.storeByMode {s t : State} (hs : Inv s) {m : Mode} {v operand : Nat} (h : storeByMode m v operand s = .next t) :
    Inv t := by
  cases m <;> cases h
  case acc => exact hs
  case mem m => exact hs.store _ _

/-- A request, registered or refused by its test `c`, touches the observer alone (R275, R276). -/
theorem Inv.of_request {s t : State} (hs : Inv s) {bp : Breakpoint} {c : Bool}
    (h : (if c then .next (s.register bp) else .refused .malformedBreakpoint : Host.Outcome State Fault Refusal) = .next t) :
    Inv t := by
  split at h <;> cases h
  exact hs

theorem Inv.performHostOp {s t : State} (hs : Inv s) {op : HostOp} (h : performHostOp op s = .next t) : Inv t := by
  cases op
  case step => exact stepKeepsInvariant s t hs h
  case execute => exact hs.executeTuple h
  case storeByMode => exact hs.storeByMode h
  case addMemoryBreakpoint | breakOn => exact hs.of_request h
  all_goals cases h
  case powerUp => exact inv_powerUp hs.1
  case reset => exact hs.warmReset
  case setRegister r v => exact hs.setRegister r v
  case store => exact hs.store _ _
  case storeWord => exact (hs.store _ _).store _ _
  case addBreakpoint | removeBreakpoint => exact hs

/-- Settles O18: only an operation performed answers a next state, and each of them keeps the invariant. -/
theorem hostOperationsKeepInvariant : Obligations.HostOperationsKeepInvariant := by
  intro op s t hs h
  cases hd : driving s with
  | true =>
    rw [applyHostOp_of_driving hd] at h
    cases h
  | false =>
    rw [applyHostOp_of_idle hd] at h
    exact hs.performHostOp h

end Sys2Proof.Machine
